-- ==== Sys2Proof/Word.lean ====
section
/-! DEFINITION. The word types of the block and their plainest arithmetic.

Spec: 00_scope.md rule R8 (widths), rule R9 (bit 0 is the least significant bit). -/

namespace Sys2Proof

/-- `u16`: the request word, the transport word, a Raw Sample, `RES`; `s16` for `X_OUT`, `Y_OUT` (read by `toInt`). -/
abbrev Word := BitVec 16

/-- `u8`: the byte of one bus exchange. -/
abbrev Byte := BitVec 8

end Sys2Proof
end

