-- ==== Sys2Proof/Config.lean ====
section
/-! DEFINITION. The parameters of one instance of the block, and the free values.

Spec: 00_scope.md rule R7 and 20_memory.md rule R43 (parameters), 10_state.md rule R32 (environment draws),
92_eei_decisions.md D6 to D10, D22, D35. -/

namespace Sys2Proof

/-- `MODE` (R2, R7): the transport option, fixed for the life of the block. -/
inductive Mode where
  /-- the bit-banged SPI master -/
  | soft
  /-- the hardware-SPI wrapper -/
  | hard
deriving DecidableEq, Repr, Inhabited

/-- The parameters of 00_scope.md rule R7, under the spec's names, and the peripheral instance of 20_memory.md rule R43.
A default stands where R7 gives one; a parameter without a default is OPEN in the source. -/
structure Params where
  /-- `MODE` -/
  mode : Mode
  /-- `HAS_PRESENCE`: a dedicated presence line exists -/
  hasPresence : Bool
  /-- `Z1_THRESHOLD` (OPEN, D8) -/
  z1Threshold : Word
  /-- `CMD_X` (OPEN, D6) -/
  cmdX : Byte
  /-- `CMD_Y` (OPEN, D6) -/
  cmdY : Byte
  /-- `CMD_Z1` (OPEN, D6) -/
  cmdZ1 : Byte
  /-- `CMD_Z2` (OPEN, D6) -/
  cmdZ2 : Byte
  /-- `DUMMY` (default 0x00, D7) -/
  dummy : Byte := 0x00
  /-- `SPI_MODE` (default 0, D9) -/
  spiMode : Fin 4 := 0
  /-- `SPI_CLOCK` in Hz (OPEN, D10; `Params.wf` says it is positive; no rule depends on it) -/
  spiClock : Rat
  /-- `POINT_POSTCHECK` (default false, D22) -/
  pointPostcheck : Bool := false
  /-- `PIN_SCK` (OPEN, D35) -/
  pinSck : Nat
  /-- `PIN_MOSI` (OPEN, D35) -/
  pinMosi : Nat
  /-- `PIN_MISO` (OPEN, D35) -/
  pinMiso : Nat
  /-- `PIN_CS` (OPEN, D35) -/
  pinCs : Nat
  /-- `PIN_PRES` (OPEN, D35) -/
  pinPres : Nat
  /-- which peripheral is used in HARD mode (20_memory.md R43; OPEN, D35), an opaque identifier -/
  peripheral : Nat
deriving DecidableEq, Repr, Inhabited

/-- The parameters of the one instance the machine is run from reset with: no body, so nothing can be proved about
their values (assumption log 1). -/
opaque Config.instanceParams : Params

/-- The n-th MISO level where the environment has fixed none (R32; log 4). -/
opaque Config.freeMiso : Nat → Bool

/-- The n-th answer of `p_exchange` where the environment has fixed none: a byte, or `none` for an exchange that
never returns (R32, 40_transport.md R78; log 4). -/
opaque Config.freeExchange : Nat → Option Byte

/-- The n-th answer of `p_busy` where the environment has fixed none (R32; log 4). -/
opaque Config.freeBusy : Nat → Bool

/-- The n-th level of the presence line where the environment has fixed none (R32; log 4). -/
opaque Config.freePresence : Nat → Bool

end Sys2Proof
end

