-- ==== Sys2Proof/Syntax.lean ====
section
/-! DEFINITION. The operations of the block, and the fields of the operation-request word.

Spec: 30_encoding.md rules R51, R52, R53; spec/opcode_table.json. -/

namespace Sys2Proof

/-- The Coordinate Channel (R53). -/
inductive Channel where
  | x
  | y
  | z1
  | z2
deriving DecidableEq, Repr

/-- One constructor per row of spec/opcode_table.json (R52). -/
inductive Instr where
  /-- `INIT` (R83 to R85) -/
  | init
  /-- `IS_BUSY` (R86) -/
  | isBusy
  /-- `IS_TOUCHED` (R89) -/
  | isTouched
  /-- `GET_RAW_POINT` (R92) -/
  | getRawPoint
  /-- `FETCH ch` (R95) -/
  | fetch (ch : Channel)
deriving DecidableEq, Repr

/-- The four fields of the request word, format `OPW` (R51). -/
structure Opw where
  /-- `OP`, bits 15:12 -/
  op : BitVec 4
  /-- `RSV1`, bits 11:10, must be 0 -/
  rsv1 : BitVec 2
  /-- `CH`, bits 9:8, FETCH only, must be 0 for every other operation -/
  ch : BitVec 2
  /-- `RSV0`, bits 7:0, must be 0 -/
  rsv0 : BitVec 8
deriving DecidableEq, Repr

/-- Why a request word is ILLEGAL (R54; the names are the model's, from 95_test_vectors.md's decoder table; log 12). -/
inductive Illegal where
  /-- `OP` is 0x5 to 0xF -/
  | reservedOp
  /-- `RSV1` is not 0 -/
  | nonzeroRsv1
  /-- `RSV0` is not 0 -/
  | nonzeroRsv0
  /-- `CH` is not 0 on an operation other than FETCH -/
  | channelOutsideFetch
deriving DecidableEq, Repr

end Sys2Proof
end

