-- ==== Sys2Proof/WellFormed.lean ====
section
/-! DEFINITION. What a well-formed request word, operation and parameter set is.

Spec: 30_encoding.md rules R51 to R54; 00_scope.md rule R7. -/

namespace Sys2Proof

/-- The fields make one of the legal words (R51, R52): `OP` is one of the five codes, the reserved fields are 0,
and `CH` is 0 outside FETCH (`OP` = 0x4). -/
def Opw.wf (f : Opw) : Bool :=
  decide (f.op.toNat ≤ 4) && decide (f.rsv1 = 0) && decide (f.rsv0 = 0) && (decide (f.op = 4) || decide (f.ch = 0))

/-- Every operation is well formed: each constructor is a row of the table, and every value of `CH` is a legal
channel for FETCH (R53), so the type admits no ill-formed operation. What can be ill formed is a word's fields. -/
def Instr.wf : Instr → Bool
  | .init => true
  | .isBusy => true
  | .isTouched => true
  | .getRawPoint => true
  | .fetch .x => true
  | .fetch .y => true
  | .fetch .z1 => true
  | .fetch .z2 => true

/-- `SPI_CLOCK` is a positive rational (R7); the types of the other parameters admit their legal values only. -/
def Params.wf (p : Params) : Bool := decide (0 < p.spiClock)

end Sys2Proof
end

