-- ==== Sys2Proof/Decode.lean ====
section
/-! DEFINITION. The decoder and the encoder of the operation-request word, and the assembler syntax.

Spec: 30_encoding.md rules R51 to R57; spec/opcode_table.json. -/

namespace Sys2Proof

/-- The `CH` field of a channel (R53). -/
def Channel.code : Channel → BitVec 2
  | .x => 0
  | .y => 1
  | .z1 => 2
  | .z2 => 3

/-- The channel a `CH` field names (R53): every value is a legal channel. -/
def Channel.ofCode (c : BitVec 2) : Channel :=
  if c = 0 then .x else if c = 1 then .y else if c = 2 then .z1 else .z2

/-- The four fields of a request word (R51). -/
def Opw.ofWord (w : Word) : Opw where
  op := w.extractLsb' 12 4
  rsv1 := w.extractLsb' 10 2
  ch := w.extractLsb' 8 2
  rsv0 := w.extractLsb' 0 8

/-- The request word of four fields (R51). -/
def Opw.toWord (f : Opw) : Word := f.op ++ f.rsv1 ++ f.ch ++ f.rsv0

/-- The fields of an operation's word (R51 to R53). -/
def Instr.fields : Instr → Opw
  | .init => ⟨0x0, 0, 0, 0⟩
  | .isBusy => ⟨0x1, 0, 0, 0⟩
  | .isTouched => ⟨0x2, 0, 0, 0⟩
  | .getRawPoint => ⟨0x3, 0, 0, 0⟩
  | .fetch ch => ⟨0x4, 0, ch.code, 0⟩

/-- Why a word's fields are ILLEGAL, if they are (R54). The order among the reasons is the model's (log 12). -/
def Opw.illegal (f : Opw) : Option Illegal :=
  if 0x4 < f.op then some .reservedOp
  else if f.rsv1 ≠ 0 then some .nonzeroRsv1
  else if f.rsv0 ≠ 0 then some .nonzeroRsv0
  else if f.op ≠ 0x4 ∧ f.ch ≠ 0 then some .channelOutsideFetch
  else none

/-- The operation of a legal word's fields (R52). -/
def Opw.instr (f : Opw) : Instr :=
  if f.op = 0x0 then .init
  else if f.op = 0x1 then .isBusy
  else if f.op = 0x2 then .isTouched
  else if f.op = 0x3 then .getRawPoint
  else .fetch (Channel.ofCode f.ch)

/-- Decoding (R54): total on every word; an ILLEGAL word is rejected with its reason's name.
It depends on the word alone (R56). -/
def decode (w : Word) : Except Illegal Instr :=
  match (Opw.ofWord w).illegal with
  | some reason => .error reason
  | none => .ok (Opw.ofWord w).instr

/-- The one request word of an operation (R51 to R53, R55, R57). -/
def encode (i : Instr) : Word := i.fields.toWord

/-- The decoder on a word numbered as spec/opcode_table.json numbers it; every bit above `nbits` is 0.
A request is one 16-bit word (R56), so a longer value is none. -/
def decodeTableWord (nbits w : Nat) : Option Instr :=
  if w % 2 ^ nbits < 2 ^ 16 then (decode (BitVec.ofNat 16 (w % 2 ^ nbits))).toOption else none

/-! ### Assembler syntax (R55) -/

/-- The channel names of R55. -/
def Channel.text : Channel → List Char
  | .x => ['X']
  | .y => ['Y']
  | .z1 => ['Z', '1']
  | .z2 => ['Z', '2']

/-- The mnemonics of R52. -/
def Instr.mnemonic : Instr → List Char
  | .init => ['I', 'N', 'I', 'T']
  | .isBusy => ['I', 'S', '_', 'B', 'U', 'S', 'Y']
  | .isTouched => ['I', 'S', '_', 'T', 'O', 'U', 'C', 'H', 'E', 'D']
  | .getRawPoint => ['G', 'E', 'T', '_', 'R', 'A', 'W', '_', 'P', 'O', 'I', 'N', 'T']
  | .fetch _ => ['F', 'E', 'T', 'C', 'H']

/-- The words of an operation's line: the mnemonic, then for FETCH the channel name (R55). -/
def Instr.tokens (i : Instr) : List (List Char) :=
  match i with
  | .init => [i.mnemonic]
  | .isBusy => [i.mnemonic]
  | .isTouched => [i.mnemonic]
  | .getRawPoint => [i.mnemonic]
  | .fetch ch => [i.mnemonic, ch.text]

/-- The line of an operation (R55). -/
def Instr.text (i : Instr) : List Char := [' '].intercalate i.tokens

/-- A line up to its comment: `;` starts a comment that runs to the end of the line (R55). -/
def Asm.code (line : List Char) : List Char := line.takeWhile (· ≠ ';')

/-- The words of a line, separated by blanks (spaces and tabs; log 14); `word` is the word being read, backwards. -/
def Asm.words (word : List Char) : List Char → List (List Char)
  | [] => if word = [] then [] else [word.reverse]
  | c :: rest =>
    if c = ' ' ∨ c = '\t' then
      if word = [] then Asm.words [] rest else word.reverse :: Asm.words [] rest
    else Asm.words (c :: word) rest

/-- The eight legal operations, in the order of R55's table. -/
def Instr.all : List Instr :=
  [.init, .isBusy, .isTouched, .getRawPoint, .fetch .x, .fetch .y, .fetch .z1, .fetch .z2]

/-- One line of assembler text (R55): outer `none` for no legal line, `some none` for a line with no operation
(blank, or only a comment; log 14). Names are case-sensitive. -/
def Asm.line (line : List Char) : Option (Option Instr) :=
  let ws := Asm.words [] (Asm.code line)
  if ws = [] then some none else (Instr.all.find? (·.tokens = ws)).map some

/-- The request words of a text, one operation per line (R55). -/
def Asm.assemble : List (List Char) → Option (List Word)
  | [] => some []
  | l :: ls =>
    match Asm.line l, Asm.assemble ls with
    | some (some i), some ws => some (encode i :: ws)
    | some none, some ws => some ws
    | _, _ => none

end Sys2Proof
end

