-- ==== Sys2Proof/Machine/State.lean ====
section
/-! DEFINITION. The state of the block, as plain data, and the state right after reset.

Spec: 10_state.md rules R15 to R33; 70_reset_and_hazards.md rules R128 to R130. -/

namespace Sys2Proof.Machine

/-- The level of an output line (R25). -/
inductive Level where
  | low
  | high
  /-- U: not yet driven by the block -/
  | undriven
deriving DecidableEq, Repr

/-- The fault codes of 60_exceptions.md rule R112. -/
inductive FaultCode where
  /-- `F_ILLEGAL`, code 1 -/
  | illegal
  /-- `F_NOT_INIT`, code 2 -/
  | notInit
  /-- `F_REINIT`, code 3 -/
  | reinit
deriving DecidableEq, Repr

/-- The contents of `FAULT` when it is not `none` (R22): the code and the request word that raised it. -/
structure FaultRecord where
  code : FaultCode
  word : Word
deriving DecidableEq, Repr

/-- The sequencer position (R24). -/
inductive Seq where
  /-- `IDLE`: between operations, and inside an operation outside its fetches -/
  | idle
  /-- `SEL` -/
  | sel
  /-- `(i, j)`: transfer j of read cycle i -/
  | xfer (i j : Fin 3)
  /-- `REL` -/
  | rel
  /-- `FILT` -/
  | filt
deriving DecidableEq, Repr

/-- `ORDER` of `PCFG` (R26): one legal value. -/
inductive BitOrder where
  | msbFirst
deriving DecidableEq, Repr

/-- `PCFG`, the configuration INIT writes into the peripheral in HARD mode (R26). -/
structure PeriphConfig where
  /-- `ORDER` -/
  order : BitOrder
  /-- `WIDTH`, in bits -/
  width : Nat
  /-- `CPOL_CPHA` -/
  clockMode : Fin 4
  /-- `RATE`, in Hz -/
  rate : Rat
deriving DecidableEq, Repr

/-- The events of `TRACE` (R27). -/
inductive Event where
  /-- `CFG`: lines or peripheral configured -/
  | cfg
  /-- `CS(b)` -/
  | cs (b : Bool)
  /-- `OPEN`: the peripheral is enabled (HARD) -/
  | periphOpen
  /-- `CLOSE`: the peripheral is disabled (HARD) -/
  | periphClose
  /-- `XFER(tx, rx)` -/
  | xfer (tx rx : Byte)
  /-- `BUSYQ(b)` -/
  | busyq (b : Bool)
  /-- `PRES(b)` -/
  | pres (b : Bool)
  /-- `SCK(b)` (bit-level refinement) -/
  | sck (b : Bool)
  /-- `MOSI(b)` (bit-level refinement) -/
  | mosi (b : Bool)
  /-- `MISO(b)` (bit-level refinement) -/
  | miso (b : Bool)
deriving DecidableEq, Repr

/-- The Sample Triple `S[0]`, `S[1]`, `S[2]` (R19). -/
structure Triple where
  s0 : Word
  s1 : Word
  s2 : Word
deriving DecidableEq, Repr

/-- One input the environment answers (R32), the model's own: the answers already fixed from outside, next first, and
how many draws the block has made. Past the fixed answers the n-th draw is the free value n of Config (log 4). -/
structure Source (α : Type) where
  pending : List α
  taken : Nat
deriving DecidableEq, Repr

/-- The environment's four inputs (R32, log 4). -/
structure Environment where
  /-- the data-in line, one draw per bit of a SOFT XFER -/
  miso : Source Bool
  /-- the received byte of `p_exchange`, one draw per HARD XFER; `none`: the exchange never returns (R78) -/
  exchange : Source (Option Byte)
  /-- `p_busy()`, one draw per busy query in HARD mode -/
  busy : Source Bool
  /-- the level of the presence line, one draw per presence read -/
  presence : Source Bool
deriving DecidableEq, Repr

/-- The state of the machine. -/
structure State where
  /-- the parameters of R7: fixed, never written by a step (log 1) -/
  params : Params
  /-- the caller's requests still to be performed, next first (R12; log 5) -/
  requests : List Word
  /-- the reset input: reset takes effect at the next step (R128; log 6) -/
  resetLine : Bool
  /-- the environment (R32; log 4) -/
  env : Environment
  /-- `RES` (R17) -/
  res : Word
  /-- `X_OUT`, `s16` (R18) -/
  xOut : Word
  /-- `Y_OUT`, `s16` (R18) -/
  yOut : Word
  /-- `S[0..2]` (R19; log 3) -/
  triple : Triple
  /-- `INIT_DONE` (R21) -/
  initDone : Bool
  /-- `FAULT` (R22) -/
  fault : Option FaultRecord
  /-- `PERIPH_OPEN` (R23) -/
  periphOpen : Bool
  /-- `SEQ` (R24) -/
  seq : Seq
  /-- the CS line (R25) -/
  cs : Level
  /-- the SCK line (R25) -/
  sck : Level
  /-- the MOSI line (R25) -/
  mosi : Level
  /-- `PCFG` (R26); `none` is `unconfigured` -/
  pcfg : Option PeriphConfig
  /-- `TRACE` (R27), oldest event first, with the pin events of the bit-level refinement (R70; log 9) -/
  trace : List Event
deriving DecidableEq, Repr

/-- Why the machine takes no step. Neither is one of the spec's faults, which are values of `FAULT` (`FaultCode`):
raising one of those is a next state. -/
inductive Fault where
  /-- Raised by `State.blocked` for every operation and step while `FAULT` is not `none`: the block is quiescent
  (R115). Safe (log 8). -/
  | quiescent
  /-- Raised by `State.blocked` for every operation and step while an operation is stuck in a HARD exchange that never
  returns: it has no next step (R78, R118). Safe (log 7). -/
  | stuck
deriving DecidableEq, Repr

/-- Why an instruction has no meaning. -/
inductive Refusal where
  /-- Raised by an arm of `exec` whose instruction has no meaning yet. Safe. No arm raises it. -/
  | notModelled (mnemonic : String)
deriving DecidableEq, Repr

/-- No answer fixed and no draw made (log 4). -/
def Source.fresh {α : Type} : Source α := ⟨[], 0⟩

/-- An instance of the block, with parameters `p` and an environment, right after reset (R128, R130).
`RES`, `X_OUT`, `Y_OUT` and `S` have no value at reset in the spec: the model names 0 (log 2). -/
def State.resetWith (p : Params) (env : Environment) (requests : List Word) : State where
  params := p
  requests := requests
  resetLine := false
  env := env
  res := 0
  xOut := 0
  yOut := 0
  triple := ⟨0, 0, 0⟩
  initDone := false
  fault := none
  periphOpen := false
  seq := .idle
  cs := .undriven
  sck := .undriven
  mosi := .undriven
  pcfg := none
  trace := []

/-- The machine right after power-on reset (R128 to R130): the instance's parameters are unknown (log 1), no request
has been made (log 5) and nothing is fixed of the environment (log 4). -/
def State.reset : State :=
  State.resetWith Config.instanceParams ⟨.fresh, .fresh, .fresh, .fresh⟩ []

end Sys2Proof.Machine
end

