-- ==== Sys2Proof/Machine/Ops.lean ====
section
/-! DEFINITION. The named operations over State: the primitives of the spec's pseudocode, the environment's draws, the
checks every operation makes first, raising a fault, and reset.

Spec: 00_scope.md rule R10; 10_state.md rules R17, R22 to R32; 41_sampler.md rule R82; 60_exceptions.md rules R112 to
R118; 70_reset_and_hazards.md rules R128 to R130. -/

namespace Sys2Proof.Machine

/-! ### Events and lines (R10, R25, R27, R30) -/

/-- `emit(e)`: append an event to `TRACE` (R10, R27). -/
def State.emit (e : Event) (s : State) : State := { s with trace := s.trace ++ [e] }

/-- The level a bit drives a line to (R10: 0 = low, 1 = high). -/
def Level.ofBit (b : Bool) : Level := if b then .high else .low

/-- `line(CS) <- b; emit(CS(b))` (R73, R74, R84). -/
def State.driveCs (b : Bool) (s : State) : State := State.emit (.cs b) { s with cs := Level.ofBit b }

/-- `line(SCK) <- b` with no event: the drive of CONFIGURE_soft (R76), whose one event is `CFG` (log 9). -/
def State.setSck (b : Bool) (s : State) : State := { s with sck := Level.ofBit b }

/-- `line(SCK) <- b` inside an XFER, with its event `SCK(b)` of the bit level (R68, R70). -/
def State.driveSck (b : Bool) (s : State) : State := State.emit (.sck b) { s with sck := Level.ofBit b }

/-- `line(MOSI) <- b` inside an XFER, with its event `MOSI(b)` of the bit level (R68, R70). -/
def State.driveMosi (b : Bool) (s : State) : State := State.emit (.mosi b) { s with mosi := Level.ofBit b }

/-- Whether an event belongs to the operation-level `TRACE`: all but the pin events do (R27). -/
def Event.isOpLevel : Event → Bool
  | .cfg => true
  | .cs _ => true
  | .periphOpen => true
  | .periphClose => true
  | .xfer _ _ => true
  | .busyq _ => true
  | .pres _ => true
  | .sck _ => false
  | .mosi _ => false
  | .miso _ => false

/-- The operation-level `TRACE`, the reference level of the spec (R27). -/
def State.opTrace (s : State) : List Event := s.trace.filter Event.isOpLevel

/-- `cfg_out(pin)` (R30): it shows only as the `CFG` event of INIT, and the block holds no state for it (log 13). -/
def State.cfgOut (_pin : Nat) (s : State) : State := s

/-- `cfg_in(pin)` (R30): as `cfgOut` (log 13). -/
def State.cfgIn (_pin : Nat) (s : State) : State := s

/-- `p_config(c)` on the peripheral the platform assigns (R31, R43, R77): what it does inside the peripheral is not the
block's; the block's own record is `PCFG` (log 13). -/
def State.pConfig (_peripheral : Nat) (_c : PeriphConfig) (s : State) : State := s

/-- `p_open()` (R31, R43, R73): as `pConfig`; the block's own record is `PERIPH_OPEN` (log 13). -/
def State.pOpen (_peripheral : Nat) (s : State) : State := s

/-- `p_close()` (R31, R43, R74): as `pOpen` (log 13). -/
def State.pClose (_peripheral : Nat) (s : State) : State := s

/-! ### The environment's draws (R32; log 4) -/

/-- The k-th answer from now: the k-th fixed one, or past those the free value of that draw's number. -/
def Source.peek {α : Type} (free : Nat → α) (src : Source α) (k : Nat) : α :=
  match src.pending[k]? with
  | some a => a
  | none => free (src.taken + k)

/-- The source after n draws. -/
def Source.after {α : Type} (n : Nat) (src : Source α) : Source α := ⟨src.pending.drop n, src.taken + n⟩

/-- The level of the k-th data-in sample from now. -/
def State.misoAt (s : State) (k : Nat) : Bool := s.env.miso.peek Config.freeMiso k

/-- The k-th answer of `p_exchange` from now. -/
def State.exchangeAt (s : State) (k : Nat) : Option Byte := s.env.exchange.peek Config.freeExchange k

/-- The k-th answer of `p_busy` from now. -/
def State.busyAt (s : State) (k : Nat) : Bool := s.env.busy.peek Config.freeBusy k

/-- The level of the k-th presence read from now. -/
def State.presenceAt (s : State) (k : Nat) : Bool := s.env.presence.peek Config.freePresence k

/-- The state after n samples of data-in have been drawn. -/
def State.afterMiso (n : Nat) (s : State) : State := { s with env := { s.env with miso := s.env.miso.after n } }

/-- The state after n exchanges have been drawn. -/
def State.afterExchange (n : Nat) (s : State) : State :=
  { s with env := { s.env with exchange := s.env.exchange.after n } }

/-- The state after n busy statuses have been drawn. -/
def State.afterBusy (n : Nat) (s : State) : State := { s with env := { s.env with busy := s.env.busy.after n } }

/-- The state after n presence reads have been drawn. -/
def State.afterPresence (n : Nat) (s : State) : State :=
  { s with env := { s.env with presence := s.env.presence.after n } }

/-- `sample(MISO)`: one fresh draw, with its event `MISO(b)` of the bit level (R10, R68, R70). -/
def State.sampleMiso (s : State) : Bool × State := (s.misoAt 0, (s.afterMiso 1).emit (.miso (s.misoAt 0)))

/-- `p_exchange`: one fresh draw; `none` is an exchange that never returns (R31, R78). The answer is no function of
the byte sent (R72). -/
def State.drawExchange (s : State) : Option Byte × State := (s.exchangeAt 0, s.afterExchange 1)

/-- `p_busy()`: one fresh draw (R31, R32). -/
def State.drawBusy (s : State) : Bool × State := (s.busyAt 0, s.afterBusy 1)

/-- `sample(PIN_PRES)`: one fresh draw (R88). -/
def State.drawPresence (s : State) : Bool × State := (s.presenceAt 0, s.afterPresence 1)

/-! ### The registers -/

/-- `return v` at the end of an operation: `RES <- v` (R10, R17, R82). -/
def State.complete (v : Word) (s : State) : State := { s with res := v }

/-- `X_OUT <- x; Y_OUT <- y` (R18, R92). -/
def State.writePoint (x y : Word) (s : State) : State := { s with xOut := x, yOut := y }

/-- `S[0] <- v` (R19). -/
def State.setSample0 (v : Word) (s : State) : State := { s with triple := { s.triple with s0 := v } }

/-- `S[1] <- v` (R19). -/
def State.setSample1 (v : Word) (s : State) : State := { s with triple := { s.triple with s1 := v } }

/-- `S[2] <- v` (R19). -/
def State.setSample2 (v : Word) (s : State) : State := { s with triple := { s.triple with s2 := v } }

/-- `INIT_DONE <- 1` (R21, R84). -/
def State.setInitDone (s : State) : State := { s with initDone := true }

/-- `PERIPH_OPEN <- b` (R23). -/
def State.setPeriphOpen (b : Bool) (s : State) : State := { s with periphOpen := b }

/-- `PCFG <- c` (R26). -/
def State.setPcfg (c : PeriphConfig) (s : State) : State := { s with pcfg := some c }

/-- The position after a position, in the one order of R24: SEL, then (i, j) with i outer and j inner, then REL, FILT,
IDLE. -/
def Seq.next : Seq → Seq
  | .idle => .sel
  | .sel => .xfer 0 0
  | .xfer i 0 => .xfer i 1
  | .xfer i 1 => .xfer i 2
  | .xfer 0 2 => .xfer 1 0
  | .xfer 1 2 => .xfer 2 0
  | .xfer 2 2 => .rel
  | .rel => .filt
  | .filt => .idle

/-- One step of the sequencer (R24). -/
def State.advance (s : State) : State := { s with seq := s.seq.next }

/-! ### Micro-operations that may hang (R78, R109) -/

/-- The end of a micro-operation: it returned a value, or a HARD exchange inside it never returned (R78). -/
inductive Micro (α : Type) where
  | done (a : α) (s : State)
  | hung (s : State)
deriving DecidableEq, Repr

/-- Go on with `f` if the micro-operation returned; a hung one has no next step (R78). -/
def Micro.bind {α β : Type} (m : Micro α) (f : α → State → Micro β) : Micro β :=
  match m with
  | .done a s => f a s
  | .hung s => .hung s

/-- The state an operation's body leaves: complete with `RES` written, or stuck inside the scope of the fetch that hung,
with `RES` unchanged (R82, R109, R118). -/
def Micro.settle (m : Micro Word) : State :=
  match m with
  | .done v s => s.complete v
  | .hung s => s

/-! ### The caller's requests (R12; log 5) -/

/-- The state with `rest` as the requests still to be performed. -/
def State.setRequests (rest : List Word) (s : State) : State := { s with requests := rest }

/-- The caller's next request, taken (R12, R45): `none` if there is none (R129). -/
def State.takeRequest (s : State) : Option (Word × State) :=
  match s.requests with
  | [] => none
  | w :: rest => some (w, s.setRequests rest)

/-! ### Faults and the checks before a body (R82, R112 to R118) -/

/-- Taking a fault, `raise F(w)`: `FAULT <- (code, w)` and nothing else (R114, R116). -/
def State.raise (code : FaultCode) (w : Word) (s : State) : State := { s with fault := some ⟨code, w⟩ }

/-- Whether the block takes no step: it is stuck in an exchange, which is to say that the sequencer rests away from
IDLE (R24, R118), or a fault is recorded (R113 check 1, R115). -/
def State.blocked (s : State) : Option Fault :=
  if s.seq ≠ .idle then some .stuck
  else if s.fault ≠ none then some .quiescent
  else none

/-- Checks (3) and (4) of R113: an operation other than INIT before INIT, and a second INIT. -/
def State.initCheck (i : Instr) (s : State) : Option FaultCode :=
  match i, s.initDone with
  | .init, true => some .reinit
  | .init, false => none
  | .isBusy, false => some .notInit
  | .isBusy, true => none
  | .isTouched, false => some .notInit
  | .isTouched, true => none
  | .getRawPoint, false => some .notInit
  | .getRawPoint, true => none
  | .fetch _, false => some .notInit
  | .fetch _, true => none

/-- One decoded request (R82): no step while the block is blocked; a failing check raises its fault with the request
word; else the body runs and its value goes to `RES`. -/
def perform (i : Instr) (body : State → Micro Word) (s : State) : Host.Outcome State Fault Refusal :=
  match s.blocked with
  | some r => .fault r
  | none =>
    match s.initCheck i with
    | some code => .next (s.raise code (encode i))
    | none => .next (body s).settle

/-- An ILLEGAL request word (R54, R113 check 2): no step while the block is blocked; else `F_ILLEGAL` with the word. -/
def performIllegal (w : Word) (s : State) : Host.Outcome State Fault Refusal :=
  match s.blocked with
  | some r => .fault r
  | none => .next (s.raise .illegal w)

/-! ### Reset, the only way out of a fault or a hang (R115, R117, R128, R141) -/

/-- Reset: every element of the block to its reset value (R128, R130). The parameters, the environment and the caller's
later requests are not the block's and stay (log 6). -/
def State.applyReset (s : State) : State := State.resetWith s.params s.env s.requests

end Sys2Proof.Machine
end

