-- ==== Sys2Proof/Machine/Operands.lean ====
section
/-! DEFINITION. The operands of the transport and the sampler: command bytes, the transport word, sample assembly.

Spec: 20_memory.md rules R37 to R39; 30_encoding.md rules R59 to R62. -/

namespace Sys2Proof.Machine

/-- `CMD(ch)`: the controller command byte of a channel (R53, R59). -/
def command (p : Params) : Channel → Byte
  | .x => p.cmdX
  | .y => p.cmdY
  | .z1 => p.cmdZ1
  | .z2 => p.cmdZ2

/-- `v[7:0]`: the byte of a transport word that is sent, bits 15 to 8 being ignored (R39, R60); the received byte of a
transport result (R98). -/
def lowByte (v : Word) : Byte := v.setWidth 8

/-- `zext_16(b)`: a byte as a transport word (R98), and the transport's output, the received byte zero-extended (R39,
R60). -/
def zext16 (b : Byte) : Word := b.setWidth 16

/-- Put a received bit at its place of the byte, r[i] <- b for a bit not yet set (R37, R68). -/
def placeBit (r : Byte) (i : Nat) (b : Bool) : Byte := r ||| (BitVec.setWidth 8 (BitVec.ofBool b) <<< i)

/-- Sample assembly from the two data bytes of a read cycle (R38, R62, R98). -/
def assembleSample (hi lo : Byte) : Word := (zext16 hi <<< 4) ||| (zext16 lo >>> 4)

end Sys2Proof.Machine
end

