-- ==== Sys2Proof/Machine/Filter.lean ====
section
/-! DEFINITION. FILTER, the outlier-rejection filter, on the Sample Triple.

Spec: 41_sampler.md rules R100 to R103. Arithmetic is on mathematical integers (00_scope.md rule R9). -/

namespace Sys2Proof.Machine

/-- |a - b| on the samples' values (R101). -/
def distance (a b : Word) : Nat := ((a.toNat : Int) - (b.toNat : Int)).natAbs

/-- Steps 4 and 5: the pairwise distances, and the replacement of `S[0]` or `S[1]` by `S[2]` (R101, R102). -/
def Triple.replaceOutlier (t : Triple) : Triple :=
  let d01 := distance t.s0 t.s1
  let d02 := distance t.s0 t.s2
  let d12 := distance t.s1 t.s2
  if d01 > d02 ∨ d01 > d12 then
    if d02 > d12 then { t with s0 := t.s2 } else { t with s1 := t.s2 }
  else t

/-- Step 6: the average of `S[0]` and `S[1]`, truncated (R103). -/
def Triple.average (t : Triple) : Word := BitVec.ofNat 16 ((t.s0.toNat + t.s1.toNat) / 2)

/-- FILTER(s0, s1, s2) as a function of the samples (R100). -/
def filterOf (a b c : Word) : Word := (Triple.replaceOutlier ⟨a, b, c⟩).average

/-- FILTER on the registers: it reads and writes only `S[0..2]` (R100). -/
def State.runFilter (s : State) : Word × State :=
  (s.triple.replaceOutlier.average, { s with triple := s.triple.replaceOutlier })

end Sys2Proof.Machine
end

