-- ==== Sys2Proof/Machine/Flags.lean ====
section
/-! DEFINITION. The Booleans of the block. It has no flag register (10_state.md rule R20): busy, touched and point valid
are results, delivered in bit 0 of `RES`.

Spec: 10_state.md rule R20; 30_encoding.md rule R58; 41_sampler.md rules R88, R89. -/

namespace Sys2Proof.Machine

/-- A Boolean result: `zext_16(b)` (R58). -/
def boolResult (b : Bool) : Word := BitVec.setWidth 16 (BitVec.ofBool b)

/-- The presence line is active low: it reads 0 when touch is detected (R11, R88). -/
def presenceActive (level : Bool) : Bool := !level

/-- The pressure comparison z >= Z1_THRESHOLD, unsigned and inclusive (R89, R90). -/
def pressureTouched (p : Params) (z : Word) : Bool := decide (p.z1Threshold.toNat ≤ z.toNat)

end Sys2Proof.Machine
end

