-- ==== Sys2Proof/Machine/Transport.lean ====
section
/-! DEFINITION. The Bus Transport: XFER in both modes, SELECT, RELEASE, CONFIGURE.

Spec: 40_transport.md rules R67 to R80. -/

namespace Sys2Proof.Machine

/-- The bit loop of XFER_soft (R64, R68): bits n-1 down to 0 of `b`, with the bits received so far in `r`. -/
def softBits (b : Byte) : Nat → Byte → State → Byte × State
  | 0, r, s => (r, s)
  | i + 1, r, s =>
    let s := s.driveSck false
    let s := s.driveMosi (b.getLsbD i)
    let (m, s) := s.sampleMiso
    let s := s.driveSck true
    softBits b i (placeBit r i m) s

/-- XFER in SOFT mode (R68). It always completes (R79). -/
def xferSoft (tx : Word) (s : State) : Word × State :=
  let b := lowByte tx
  let (r, s) := softBits b 8 0 s
  let s := s.driveSck false
  let s := s.emit (.xfer b r)
  (zext16 r, s)

/-- XFER in HARD mode (R69); an exchange that never returns leaves it hung (R78). -/
def xferHard (tx : Word) (s : State) : Micro Word :=
  let b := lowByte tx
  match s.drawExchange with
  | (some r, s) => .done (zext16 r) (s.emit (.xfer b r))
  | (none, s) => .hung s

/-- XFER: one full-duplex 8-bit exchange in the mode of the instance (R67). -/
def xfer (tx : Word) (s : State) : Micro Word :=
  match s.params.mode with
  | .soft => .done (xferSoft tx s).1 (xferSoft tx s).2
  | .hard => xferHard tx s

/-- SELECT: begin the scoped bus acquisition (R73). -/
def select (s : State) : State :=
  match s.params.mode with
  | .soft => s.driveCs false
  | .hard => (((s.pOpen s.params.peripheral).setPeriphOpen true).emit .periphOpen).driveCs false

/-- RELEASE: end the scoped bus acquisition (R74). -/
def release (s : State) : State :=
  match s.params.mode with
  | .soft => s.driveCs true
  | .hard => (((s.driveCs true).pClose s.params.peripheral).setPeriphOpen false).emit .periphClose

/-- The configuration INIT writes into the peripheral (R26, R77). -/
def initialPcfg (p : Params) : PeriphConfig := ⟨.msbFirst, 8, p.spiMode, p.spiClock⟩

/-- CONFIGURE in SOFT mode (R76). -/
def configureSoft (s : State) : State :=
  let s := ((s.cfgOut s.params.pinSck).cfgOut s.params.pinMosi).cfgIn s.params.pinMiso
  (s.setSck false).emit .cfg

/-- CONFIGURE in HARD mode (R77). -/
def configureHard (s : State) : State :=
  ((s.setPcfg (initialPcfg s.params)).pConfig s.params.peripheral (initialPcfg s.params)).emit .cfg

end Sys2Proof.Machine
end

