-- ==== Sys2Proof/Machine/Sampler.lean ====
section
/-! DEFINITION. The Sampler: its micro-operations and the meaning of each of the five operations.

Spec: 41_sampler.md rules R81 to R99. -/

namespace Sys2Proof.Machine

/-! ### Micro-operations -/

/-- BUSYQ, the busy query (R87): SOFT answers 0 and reads nothing; HARD draws. -/
def busyQuery (s : State) : Bool × State :=
  match s.params.mode with
  | .soft => (false, s.emit (.busyq false))
  | .hard => (s.drawBusy.1, s.drawBusy.2.emit (.busyq s.drawBusy.1))

/-- PRESQ, the presence-line read (R88). -/
def presenceQuery (s : State) : Bool × State :=
  (presenceActive s.drawPresence.1, s.drawPresence.2.emit (.pres s.drawPresence.1))

/-- READ_CYCLE (R61, R98): the command byte, whose response is ignored, then the two data transfers; `rx_hi` is the
earlier one. The sequencer steps before each transfer (R24). -/
def readCycle (ch : Channel) (s : State) : Micro Word :=
  (xfer (zext16 (command s.params ch)) s.advance).bind fun _ s =>
  (xfer (zext16 s.params.dummy) s.advance).bind fun hi s =>
  (xfer (zext16 s.params.dummy) s.advance).bind fun lo s =>
  .done (assembleSample (lowByte hi) (lowByte lo)) s

/-- FETCH_seq, the raw-data sequence (R96): SELECT, three read cycles, RELEASE, then FILTER outside the scope. -/
def fetchSeq (ch : Channel) (s : State) : Micro Word :=
  (readCycle ch (select s.advance)).bind fun v s =>
  (readCycle ch (s.setSample0 v)).bind fun v s =>
  (readCycle ch (s.setSample1 v)).bind fun v s =>
  let s := release (s.setSample2 v).advance
  let (v, s) := s.advance.runFilter
  .done v s.advance

/-! ### INIT -/

/-- The part of INIT before its priming fetch (R84). -/
def initSetup (s : State) : State :=
  let s :=
    match s.params.mode with
    | .soft => configureSoft s
    | .hard => configureHard s
  let s := (s.cfgOut s.params.pinCs).driveCs true
  let s := if s.params.hasPresence then (s.cfgIn s.params.pinPres).emit .cfg else s
  s.setInitDone

/-- INIT's body (R84): set up, then one throwaway X fetch; the result is 0. -/
def initBody (s : State) : Micro Word :=
  (fetchSeq .x (initSetup s)).bind fun _ s => .done 0 s

/-- `INIT` (R83 to R85). -/
def execInit (s : State) : Host.Outcome State Fault Refusal := perform .init initBody s

/-! ### IS_BUSY -/

/-- IS_BUSY's body (R86). -/
def isBusyBody (s : State) : Micro Word := .done (boolResult (busyQuery s).1) (busyQuery s).2

/-- `IS_BUSY` (R86). -/
def execIsBusy (s : State) : Host.Outcome State Fault Refusal := perform .isBusy isBusyBody s

/-! ### IS_TOUCHED -/

/-- The body of IS_TOUCHED as a truth value (R89); GET_RAW_POINT runs it too. -/
def touchQuery (s : State) : Micro Bool :=
  let (busy, s) := busyQuery s
  if busy then .done false s
  else if s.params.hasPresence then .done (presenceQuery s).1 (presenceQuery s).2
  else (fetchSeq .z1 s).bind fun z s => .done (pressureTouched s.params z) s

/-- IS_TOUCHED's body (R89). -/
def isTouchedBody (s : State) : Micro Word := (touchQuery s).bind fun b s => .done (boolResult b) s

/-- `IS_TOUCHED` (R89, R90). -/
def execIsTouched (s : State) : Host.Outcome State Fault Refusal := perform .isTouched isTouchedBody s

/-! ### GET_RAW_POINT -/

/-- The fetches of a touched point, X before Y, and both outputs written after both (R92, R93). The last line is the
option POINT_POSTCHECK, a second run of the body of IS_TOUCHED (R92, D22). -/
def pointFetch (s : State) : Micro Bool :=
  (fetchSeq .x s).bind fun x s =>
  (fetchSeq .y s).bind fun y s =>
  let s := s.writePoint x y
  if s.params.pointPostcheck then touchQuery s else .done true s

/-- The body of GET_RAW_POINT as a truth value (R92): busy, then touch with its own busy query, then the fetches. -/
def pointQuery (s : State) : Micro Bool :=
  let (busy, s) := busyQuery s
  if busy then .done false s
  else (touchQuery s).bind fun touched s => if touched then pointFetch s else .done false s

/-- GET_RAW_POINT's body (R92). -/
def getRawPointBody (s : State) : Micro Word := (pointQuery s).bind fun b s => .done (boolResult b) s

/-- `GET_RAW_POINT` (R92, R93). -/
def execGetRawPoint (s : State) : Host.Outcome State Fault Refusal := perform .getRawPoint getRawPointBody s

/-! ### FETCH -/

/-- `FETCH ch` (R95): the raw-data sequence, with no busy query. -/
def execFetch (ch : Channel) (s : State) : Host.Outcome State Fault Refusal := perform (.fetch ch) (fetchSeq ch) s

end Sys2Proof.Machine
end

