-- ==== Sys2Proof/Machine/Dispatch.lean ====
section
/-! DEFINITION. One arm per operation: which meaning an operation has. -/

namespace Sys2Proof.Machine

def exec (i : Instr) (s : State) : Host.Outcome State Fault Refusal :=
  match i with
  | .init => Sys2Proof.Machine.execInit s
  | .isBusy => Sys2Proof.Machine.execIsBusy s
  | .isTouched => Sys2Proof.Machine.execIsTouched s
  | .getRawPoint => Sys2Proof.Machine.execGetRawPoint s
  | .fetch ch => Sys2Proof.Machine.execFetch ch s

end Sys2Proof.Machine
end

