-- ==== Sys2Proof/Machine/Step.lean ====
section
/-! DEFINITION. One step of the machine: the reset input, else the caller's next request.

Spec: 41_sampler.md rules R81, R82; 60_exceptions.md rules R109 to R118; 70_reset_and_hazards.md rules R128, R129, R148,
R149. -/

namespace Sys2Proof.Machine

/-- One step: one request of the caller (R12, R148). Reset, when its input is set, takes effect at once from any state
(R128); a stuck or faulted block takes no step (R115, R118); with no request the block does nothing (R129); else the
next request is taken, decoded and performed (R82). -/
def step (s : State) : Host.Outcome State Fault Refusal :=
  if s.resetLine then .next s.applyReset
  else
    match s.blocked with
    | some r => .fault r
    | none =>
      match s.takeRequest with
      | none => .next s
      | some (w, s) =>
        match decode w with
        | .ok i => exec i s
        | .error _ => performIllegal w s

/-- The caller's next request is the word w (numbered as spec/opcode_table.json numbers it, the bits above nbits zero),
and the reset input is not set, so that the next step performs it (log 5). -/
def State.withFetchWord (s : State) (nbits w : Nat) : State :=
  { s with resetLine := false, requests := BitVec.ofNat 16 (w % 2 ^ nbits) :: s.requests }

end Sys2Proof.Machine
end

