-- ==== Sys2Proof/Safety.lean ====
section
/-! DEFINITION. What claims are stated in: the outcomes of an operation, the observation and the good end of a run, the
bytes and events of the bus in closed form, and the invariants of the machine.

Spec: 10_state.md rules R27, R34; 20_memory.md rules R42 to R46; 30_encoding.md rules R61 to R64; 40_transport.md rules
R70 to R79; 60_exceptions.md rules R109, R112, R126; 70_reset_and_hazards.md rules R131, R149. -/

namespace Sys2Proof.Machine

/-! ### Outcomes and runs -/

/-- The operation that led to this state ran to its end (R109). -/
def State.Completed (s : State) : Prop := s.seq = .idle ∧ s.fault = none

/-- A fault is recorded (R109, R114). -/
def State.Faulted (s : State) : Prop := s.fault ≠ none

/-- An operation is stuck in an exchange that never returns (R109, R118). -/
def State.Stuck (s : State) : Prop := s.seq ≠ .idle

/-- The next operation will be performed: no fault is recorded and nothing is stuck (R113 check 1, R118). -/
def State.Ready (s : State) : Prop := s.seq = .idle ∧ s.fault = none

/-- The next operation other than INIT will run its body (R113). -/
def State.Running (s : State) : Prop := s.Ready ∧ s.initDone = true

/-- What is observed of a run (R149). -/
structure Observation where
  res : Word
  xOut : Word
  yOut : Word
  initDone : Bool
  cs : Level
  sck : Level
  mosi : Level
  trace : List Event
deriving DecidableEq, Repr

/-- The observation of a state (R149), with the operation-level `TRACE` (R27). -/
def State.observe (s : State) : Observation :=
  ⟨s.res, s.xOut, s.yOut, s.initDone, s.cs, s.sck, s.mosi, s.opTrace⟩

/-- A run ends well: the caller's last request has completed and no fault is recorded (R149). -/
def State.EndsWell (s : State) : Prop := s.requests = [] ∧ s.Completed

/-- The controller is in standby whenever CS is inactive (R126). -/
def State.ControllerInStandby (s : State) : Prop := s.cs = .high

/-! ### The bus in closed form -/

/-- The byte made of eight data-in samples, the first of which is bit 7 (R37). -/
def byteOfSamples (f : Nat → Bool) : Byte :=
  BitVec.ofBool (f 0) ++ BitVec.ofBool (f 1) ++ BitVec.ofBool (f 2) ++ BitVec.ofBool (f 3) ++
    BitVec.ofBool (f 4) ++ BitVec.ofBool (f 5) ++ BitVec.ofBool (f 6) ++ BitVec.ofBool (f 7)

/-- The byte the k-th exchange from now receives; `none`: that exchange never returns (R68, R69, R78). -/
def State.rxByte (s : State) (k : Nat) : Option Byte :=
  match s.params.mode with
  | .soft => some (byteOfSamples fun i => s.misoAt (8 * k + i))
  | .hard => s.exchangeAt k

/-- The first n exchanges from now return, with the bytes `r 0`, `r 1`, … (in SOFT mode they always do, R79; in HARD mode
this is the fairness assumption of R148). -/
def State.Receives (s : State) (n : Nat) (r : Nat → Byte) : Prop := ∀ k, k < n → s.rxByte k = some (r k)

/-- The state after the draws of n exchanges. -/
def State.afterXfers (n : Nat) (s : State) : State :=
  match s.params.mode with
  | .soft => s.afterMiso (8 * n)
  | .hard => s.afterExchange n

/-- The four line actions of bit i of a SOFT XFER that sends b and receives r (R64, R70). -/
def bitFrame (b r : Byte) (i : Nat) : List Event :=
  [.sck false, .mosi (b.getLsbD i), .miso (r.getLsbD i), .sck true]

/-- The 33 line events of a SOFT XFER (R64, R70). -/
def softFrame (b r : Byte) : List Event :=
  [7, 6, 5, 4, 3, 2, 1, 0].flatMap (bitFrame b r) ++ [.sck false]

/-- All events of one XFER: in SOFT mode its pin events come before it (R70). -/
def xferEvents (m : Mode) (b r : Byte) : List Event :=
  match m with
  | .soft => softFrame b r ++ [.xfer b r]
  | .hard => [.xfer b r]

/-- The byte a fetch of command byte `cmd` sends on its k-th transfer: CMD, DUMMY, DUMMY three times (R61, R63). -/
def fetchSends (cmd dummy : Byte) (k : Nat) : Byte := if k % 3 = 0 then cmd else dummy

/-- The events of the first n transfers of a fetch that receives `r` (R63). -/
def fetchXfers (m : Mode) (cmd dummy : Byte) (r : Nat → Byte) (n : Nat) : List Event :=
  (List.range n).flatMap fun k => xferEvents m (fetchSends cmd dummy k) (r k)

/-- The events of SELECT (R73). -/
def selectEvents : Mode → List Event
  | .soft => [.cs false]
  | .hard => [.periphOpen, .cs false]

/-- The events of RELEASE (R74). -/
def releaseEvents : Mode → List Event
  | .soft => [.cs true]
  | .hard => [.cs true, .periphClose]

/-- The events of a fetch frame (R63). -/
def fetchEvents (m : Mode) (cmd dummy : Byte) (r : Nat → Byte) : List Event :=
  selectEvents m ++ fetchXfers m cmd dummy r 9 ++ releaseEvents m

/-- The Sample Triple of nine received bytes: positions 1, 2, then 4, 5, then 7, 8; 0, 3, 6 are ignored (R62, R63). -/
def samplesOf (r : Nat → Byte) : Triple :=
  ⟨assembleSample (r 1) (r 2), assembleSample (r 4) (r 5), assembleSample (r 7) (r 8)⟩

/-- The filtered value of nine received bytes (R63, R100). -/
def fetchValue (r : Nat → Byte) : Word := (samplesOf r).replaceOutlier.average

/-- The state an XFER that sends b and receives r leaves (R67 to R69): the lines of its mode and `TRACE`, nothing else
of the block. -/
def State.xferred (b r : Byte) (s : State) : State :=
  { s.afterXfers 1 with
    sck := match s.params.mode with | .soft => .low | .hard => s.sck
    mosi := match s.params.mode with | .soft => Level.ofBit (b.getLsbD 0) | .hard => s.mosi
    trace := s.trace ++ xferEvents s.params.mode b r }

/-- The state a fetch of channel ch leaves when its nine exchanges return `r` (R95 to R97, R131). -/
def State.fetched (ch : Channel) (r : Nat → Byte) (s : State) : State :=
  { s.afterXfers 9 with
    triple := (samplesOf r).replaceOutlier
    periphOpen := match s.params.mode with | .soft => s.periphOpen | .hard => false
    cs := .high
    sck := match s.params.mode with | .soft => .low | .hard => s.sck
    mosi := match s.params.mode with | .soft => Level.ofBit (s.params.dummy.getLsbD 0) | .hard => s.mosi
    trace := s.trace ++ fetchEvents s.params.mode (command s.params ch) s.params.dummy r }

/-- The state a fetch of channel ch is stuck in when its first n exchanges return `r` and the next never does, n < 9
(R78, R118; HARD mode only): inside the scope, with the sequencer at that exchange and the samples read so far. -/
def State.hungFetch (ch : Channel) (r : Nat → Byte) (n : Nat) (s : State) : State :=
  { s.afterXfers (n + 1) with
    triple :=
      ⟨if 3 ≤ n then (samplesOf r).s0 else s.triple.s0, if 6 ≤ n then (samplesOf r).s1 else s.triple.s1, s.triple.s2⟩
    periphOpen := true
    seq := .xfer (Fin.ofNat 3 (n / 3)) (Fin.ofNat 3 (n % 3))
    cs := .low
    trace := s.trace ++ (selectEvents .hard ++ fetchXfers .hard (command s.params ch) s.params.dummy r n) }

/-! ### The queries and the set-up in closed form -/

/-- The answer of the k-th busy query from now: 0 in SOFT mode, a draw in HARD mode (R87). -/
def State.busyAnswer (s : State) (k : Nat) : Bool :=
  match s.params.mode with
  | .soft => false
  | .hard => s.busyAt k

/-- The state after one busy query (R87). -/
def State.queried (s : State) : State :=
  { s with
    env := match s.params.mode with | .soft => s.env | .hard => (s.afterBusy 1).env
    trace := s.trace ++ [.busyq (s.busyAnswer 0)] }

/-- The state after one presence read (R88). -/
def State.presenceRead (s : State) : State :=
  { s with env := (s.afterPresence 1).env, trace := s.trace ++ [.pres (s.presenceAt 0)] }

/-- The state INIT's priming fetch starts from (R84). -/
def State.setUp (s : State) : State :=
  { s with
    cs := .high
    sck := match s.params.mode with | .soft => .low | .hard => s.sck
    pcfg :=
      match s.params.mode with
      | .soft => s.pcfg
      | .hard => some ⟨.msbFirst, 8, s.params.spiMode, s.params.spiClock⟩
    initDone := true
    trace := s.trace ++ (if s.params.hasPresence then [.cfg, .cs true, .cfg] else [.cfg, .cs true]) }

/-! ### Invariants -/

/-- The relations between the elements of the state that hold between any two steps. -/
structure State.Inv (s : State) : Prop where
  /-- in SOFT mode `PERIPH_OPEN` is constantly 0, `PCFG` does not exist and nothing hangs (R23, R26, R79) -/
  soft : s.params.mode = .soft → s.periphOpen = false ∧ s.pcfg = none ∧ s.seq = .idle
  /-- in HARD mode the block does not model SCK and MOSI (R25) -/
  hard : s.params.mode = .hard → s.sck = .undriven ∧ s.mosi = .undriven
  /-- before INIT nothing has happened outside, and every element but `FAULT` is as reset leaves it (R130, R114) -/
  beforeInit : s.initDone = false →
    s.cs = .undriven ∧ s.sck = .undriven ∧ s.mosi = .undriven ∧ s.periphOpen = false ∧ s.pcfg = none ∧
      s.seq = .idle ∧ s.trace = []
  /-- between two operations after INIT (R34, R131) -/
  afterInit : s.initDone = true → s.seq = .idle →
    s.cs = .high ∧ s.periphOpen = false ∧
      (s.params.mode = .soft → s.sck = .low ∧ s.mosi = Level.ofBit (s.params.dummy.getLsbD 0))
  /-- INIT has configured the peripheral, and nothing changes it (R26, R131) -/
  configured : s.initDone = true → s.params.mode = .hard → s.pcfg = some (initialPcfg s.params)
  /-- a stuck block rests at an exchange, inside its scope, with no fault (R78, R118) -/
  stuck : s.seq ≠ .idle →
    s.params.mode = .hard ∧ s.initDone = true ∧ s.cs = .low ∧ s.periphOpen = true ∧ s.fault = none ∧
      ∃ i j, s.seq = .xfer i j
  /-- every Raw Sample, coordinate and result is 12 bits wide (R17, R18, R19) -/
  twelveBit : s.triple.s0.toNat < 4096 ∧ s.triple.s1.toNat < 4096 ∧ s.triple.s2.toNat < 4096 ∧
    s.xOut.toNat < 4096 ∧ s.yOut.toNat < 4096 ∧ s.res.toNat < 4096
  /-- `FAULT` records a cause of R112 -/
  cause : ∀ f, s.fault = some f →
    match f.code with
    | .illegal => ∃ reason, decode f.word = .error reason
    | .notInit => s.initDone = false ∧ ∃ i, i ≠ .init ∧ f.word = encode i
    | .reinit => s.initDone = true ∧ f.word = encode .init

/-- Where a reader of `TRACE` is, relative to an acquisition scope. -/
inductive Scope where
  /-- no scope is open -/
  | outside
  /-- HARD: the peripheral is open and CS is not yet low -/
  | opened
  /-- CS is low, and n transfers have been made -/
  | inside (n : Nat)
  /-- HARD: CS is high again and the peripheral not yet closed -/
  | released
deriving DecidableEq, Repr

/-- Reading one event of `TRACE`: `none` if the scope discipline forbids it there (R46, R73 to R75). A scope holds nine
transfers, with in SOFT mode their pin events, and nothing else. -/
def Scope.read (m : Mode) : Scope → Event → Option Scope
  | .outside, .cfg => some .outside
  | .outside, .cs true => some .outside
  | .outside, .busyq _ => some .outside
  | .outside, .pres _ => some .outside
  | .outside, .cs false => if m = .soft then some (.inside 0) else none
  | .outside, .periphOpen => if m = .hard then some .opened else none
  | .opened, .cs false => some (.inside 0)
  | .inside n, .xfer _ _ => if n < 9 then some (.inside (n + 1)) else none
  | .inside n, .sck _ => if m = .soft ∧ n < 9 then some (.inside n) else none
  | .inside n, .mosi _ => if m = .soft ∧ n < 9 then some (.inside n) else none
  | .inside n, .miso _ => if m = .soft ∧ n < 9 then some (.inside n) else none
  | .inside 9, .cs true => if m = .soft then some .outside else some .released
  | .released, .periphClose => some .outside
  | _, _ => none

/-- Reading a whole trace from outside any scope. -/
def scanTrace (m : Mode) (events : List Event) : Option Scope :=
  events.foldlM (Scope.read m) .outside

/-- The scope a sequencer position between two steps stands for: none at IDLE, and at transfer j of cycle i the open one
with 3 i + j transfers made. -/
def Seq.scope : Seq → Scope
  | .idle => .outside
  | .sel => .opened
  | .xfer i j => .inside (3 * i.val + j.val)
  | .rel => .inside 9
  | .filt => .outside

/-- Every scope of `TRACE` is well formed and closed, but for the one a stuck fetch is in (R75). -/
def State.ScopesOk (s : State) : Prop := scanTrace s.params.mode s.trace = some s.seq.scope

/-- Whether an event is an exchange. -/
def Event.isXfer : Event → Bool
  | .xfer _ _ => true
  | .cfg => false
  | .cs _ => false
  | .periphOpen => false
  | .periphClose => false
  | .busyq _ => false
  | .pres _ => false
  | .sck _ => false
  | .mosi _ => false
  | .miso _ => false

/-- Every presence read of `TRACE` comes after the nine exchanges of a whole fetch, and between two operations after INIT
that many have been made (R133, R143). -/
def State.PrimesFirst (s : State) : Prop :=
  (∀ before b after, s.trace = before ++ .pres b :: after → 9 ≤ before.countP Event.isXfer) ∧
  (s.initDone = true → s.seq = .idle → 9 ≤ s.trace.countP Event.isXfer)

end Sys2Proof.Machine
end

