-- ==== Sys2Proof/Certificates/Slice0/Obligations.lean ====
section
/-! DEFINITION. The statements about the machine, for the provers. Each docstring says which rule of spec/ it
formalises, and which log entry it rests on where part of it is the model's. In every statement that gives a whole next
state, the draws made stand in the field `env`, which is the model's form of R32 (log 4). -/

open Sys2Proof Sys2Proof.Machine

/-! ### Encoding -/

/-- The words of R55's table decode to their operations, and words of 95_test_vectors.md's decoder table that break one
field rule each are illegal. -/
def Obligations.LegalWordsDecode : Prop :=
  decode 0b0000000000000000 = .ok .init ∧ decode 0b0001000000000000 = .ok .isBusy ∧
  decode 0b0010000000000000 = .ok .isTouched ∧ decode 0b0011000000000000 = .ok .getRawPoint ∧
  decode 0b0100000000000000 = .ok (.fetch .x) ∧ decode 0b0100000100000000 = .ok (.fetch .y) ∧
  decode 0b0100001000000000 = .ok (.fetch .z1) ∧ decode 0b0100001100000000 = .ok (.fetch .z2) ∧
  decode 0b0101000000000000 = .error .reservedOp ∧ decode 0b0000010000000000 = .error .nonzeroRsv1 ∧
  decode 0b0100001100000001 = .error .nonzeroRsv0 ∧ decode 0b0001000100000000 = .error .channelOutsideFetch

/-- A word decodes to an operation exactly when it is that operation's word: decode and encode agree both ways, over all
words and all operations (R54, R55: the legal words are exactly those of the table). -/
def Obligations.DecodeInvertsEncode : Prop :=
  ∀ (w : Word) (i : Instr), decode w = .ok i ↔ w = encode i

/-- Decoding as R54's pseudocode has it, on every word: FETCH of the `CH` field; else the other four operations; else
ILLEGAL, and an illegal word raises F_ILLEGAL with the word as its information. That the request leaves the caller's list is
the model's (log 5). -/
def Obligations.DecodeFollowsTheFields : Prop :=
  ∀ w : Word,
    (w.toNat / 4096 = 4 → w.toNat / 1024 % 4 = 0 → w.toNat % 256 = 0 →
      ∃ ch, decode w = .ok (.fetch ch) ∧
        w.toNat / 256 % 4 = (match ch with | .x => 0 | .y => 1 | .z1 => 2 | .z2 => 3)) ∧
    (∀ h : w.toNat / 4096 < 4, w.toNat % 4096 = 0 →
      decode w = .ok ([Instr.init, .isBusy, .isTouched, .getRawPoint][w.toNat / 4096]'h)) ∧
    (¬(w.toNat / 4096 = 4 ∧ w.toNat / 1024 % 4 = 0 ∧ w.toNat % 256 = 0) →
      ¬(w.toNat / 4096 < 4 ∧ w.toNat % 4096 = 0) →
      (∃ reason, decode w = .error reason) ∧
      ∀ (s : State) (rest : List Word), s.Ready → s.resetLine = false → s.requests = w :: rest →
        step s = .next { s with requests := rest, fault := some ⟨.illegal, w⟩ })

/-- Every operation's line of assembler text is read back as that operation, whatever comment follows it (R55). -/
def Obligations.AssemblerReadsEveryOperation : Prop :=
  ∀ (i : Instr) (comment : List Char),
    Asm.line i.text = some (some i) ∧ Asm.line (i.text ++ ';' :: comment) = some (some i)

/-! ### Steps and requests -/

/-- When the reset input is clear and the caller's next request decodes to i, the step is i's meaning at the state with
that request taken off the caller's list (R82; the list is the model's, log 5). -/
def Obligations.StepRunsDecodedRequest : Prop :=
  ∀ (s : State) (w : Word) (rest : List Word) (i : Instr),
    s.resetLine = false → s.requests = w :: rest → decode w = .ok i →
    step s = exec i { s with requests := rest }

/-- A step after State.withFetchWord is the meaning of the operation whose word was stored (log 5). -/
def Obligations.StepRunsStoredWord : Prop :=
  ∀ (s : State) (i : Instr),
    step (s.withFetchWord 16 (encode i).toNat) = exec i { s with resetLine := false }

/-- The checks before a body, in their order, the first that fails being the one reported: a recorded fault (no step), an
illegal word (before INIT too), an operation before INIT, a second INIT (R113). That no step is the stop `Fault.quiescent`
is the model's form of check 1 (log 8), and that the request leaves the caller's list is the model's (log 5). -/
def Obligations.ChecksRunInOrder : Prop :=
  ∀ (s : State) (w : Word) (rest : List Word),
    s.seq = .idle → s.resetLine = false → s.requests = w :: rest →
    (s.fault ≠ none → step s = .fault .quiescent) ∧
    (s.fault = none → ∀ reason, decode w = .error reason →
      step s = .next { s with requests := rest, fault := some ⟨.illegal, w⟩ }) ∧
    (s.fault = none → ∀ i, decode w = .ok i → i ≠ .init → s.initDone = false →
      step s = .next { s with requests := rest, fault := some ⟨.notInit, w⟩ }) ∧
    (s.fault = none → decode w = .ok .init → s.initDone = true →
      step s = .next { s with requests := rest, fault := some ⟨.reinit, w⟩ })

/-- Without a request the block performs nothing (R129); that a step is taken at all, and changes nothing, is the model's
form of it (log 5). -/
def Obligations.NoRequestNoChange : Prop :=
  ∀ s : State, s.Ready → s.resetLine = false → s.requests = [] → step s = .next s

/-- Reset takes effect at once from any state, a faulted or stuck one too, and sets every element for which the spec
gives a reset value to that value, driving no line; and it is the only event that clears `FAULT` or `INIT_DONE` (R128,
R130). That it is taken by the next step, between two operations, when the input `resetLine` is set, and that it keeps the
parameters, the environment and the caller's later requests, is the model's (log 6). -/
def Obligations.ResetAndOnlyResetClears : Prop :=
  ∀ s : State,
    (s.resetLine = true →
      ∃ t, step s = .next t ∧
        t.initDone = false ∧ t.fault = none ∧ t.periphOpen = false ∧ t.seq = .idle ∧ t.cs = .undriven ∧
        t.sck = .undriven ∧ t.mosi = .undriven ∧ t.pcfg = none ∧ t.trace = [] ∧
        t.params = s.params ∧ t.env = s.env ∧ t.requests = s.requests) ∧
    (∀ t, s.resetLine = false → step s = .next t → s.fault = none ∧ (s.initDone = true → t.initDone = true))

/-- The power-on state: the values the spec gives (R130), and 0 for `RES`, `X_OUT`, `Y_OUT` and `S`, which is the MODEL'S
choice (log 2), as is the empty list of requests (log 5). -/
def Obligations.PowerOnState : Prop :=
  State.reset.initDone = false ∧ State.reset.fault = none ∧ State.reset.periphOpen = false ∧ State.reset.seq = .idle ∧
  State.reset.cs = .undriven ∧ State.reset.sck = .undriven ∧ State.reset.mosi = .undriven ∧ State.reset.pcfg = none ∧
  State.reset.trace = [] ∧
  State.reset.res = 0 ∧ State.reset.xOut = 0 ∧ State.reset.yOut = 0 ∧ State.reset.triple = ⟨0, 0, 0⟩ ∧
  State.reset.requests = []

/-! ### Faults -/

/-- Once `FAULT` is recorded the block takes no step for any later request (R115, R113 check 1); the model says so by the
stop `Fault.quiescent` (log 8). -/
def Obligations.FaultedBlockTakesNoStep : Prop :=
  ∀ s : State, s.Faulted → s.seq = .idle →
    (∀ i, exec i s = .fault .quiescent) ∧ (s.resetLine = false → step s = .fault .quiescent)

/-- A stuck block takes no step, so no later request is performed, and it rests inside the scope of the fetch that hung,
with CS = 0, `PERIPH_OPEN` = 1 and no fault recorded (R118); the model says so by the stop `Fault.stuck` (log 7). -/
def Obligations.StuckBlockTakesNoStep : Prop :=
  ∀ s : State, s.Inv → s.Stuck →
    s.cs = .low ∧ s.periphOpen = true ∧ s.fault = none ∧
    (∀ i, exec i s = .fault .stuck) ∧ (s.resetLine = false → step s = .fault .stuck)

/-- Any operation but INIT before INIT raises F_NOT_INIT with its word, and a second INIT raises F_REINIT; nothing else
changes (R132, R112, R114). -/
def Obligations.InitMustComeFirstAndOnce : Prop :=
  ∀ s : State, s.Ready →
    (∀ i, i ≠ .init → s.initDone = false → exec i s = .next { s with fault := some ⟨.notInit, encode i⟩ }) ∧
    (s.initDone = true → exec .init s = .next { s with fault := some ⟨.reinit, 0x0000⟩ })

/-- Faults are precise: a step that ends with a fault recorded has taken its request and written `FAULT`, and nothing
else (R114). That the request leaves the caller's list is the model's (log 5). -/
def Obligations.FaultEntryIsPrecise : Prop :=
  ∀ s t : State, step s = .next t → t.Faulted →
    ∃ f, t.fault = some f ∧ t = { s with requests := t.requests, fault := some f } ∧ s.requests = f.word :: t.requests

/-- Every operation of a ready block ends in exactly one of complete, fault and stuck (R109). Complete: `RES` is written, 0
by INIT, 0 or 1 by the queries, the filtered value by FETCH (R58). Fault: `FAULT` is written and nothing else. Stuck: `RES`
is as it was, in HARD mode only; R109 says that the operation then has no next step, and that the stuck outcome is a next
state, from which no step is taken, is the model's form of it (log 7). -/
def Obligations.ExactlyOneOutcome : Prop :=
  ∀ (s : State) (i : Instr), s.Ready →
    ∃ t, exec i s = .next t ∧
      ((t.Completed ∧ ¬t.Faulted ∧ ¬t.Stuck ∧
          match i with
          | .init => t.res = 0
          | .isBusy => t.res = 0 ∨ t.res = 1
          | .isTouched => t.res = 0 ∨ t.res = 1
          | .getRawPoint => t.res = 0 ∨ t.res = 1
          | .fetch _ => ∃ r, s.Receives 9 r ∧ t.res = fetchValue r) ∨
       (¬t.Completed ∧ t.Faulted ∧ ¬t.Stuck ∧ ∃ c, t = { s with fault := some ⟨c, encode i⟩ }) ∨
       (¬t.Completed ∧ ¬t.Faulted ∧ t.Stuck ∧ t.res = s.res ∧ t.params.mode = .hard))

/-- In SOFT mode no operation hangs: each one completes once the checks on INIT pass (R79 and R148, the spec's own
inference from R68 and R32). -/
def Obligations.SoftOperationsComplete : Prop :=
  ∀ (s : State) (i : Instr), s.Ready → s.params.mode = .soft → (i = .init ↔ s.initDone = false) →
    ∃ t, exec i s = .next t ∧ t.Completed

/-! ### INIT -/

/-- INIT completes with everything R131 gives: lines, `PCFG`, `INIT_DONE`, `RES` = 0, the configuration events and one
whole X fetch, and nothing else changed (R84, and R131, the spec's own inference from it); in HARD mode on the assumption
that its nine exchanges return (R148). What `S` keeps afterwards is the model's (log 3), and so is the bit level of `TRACE` in
SOFT mode: the pin events of each XFER before its XFER event, and none for CONFIGURE's SCK drive (log 9). -/
def Obligations.InitCompletes : Prop :=
  ∀ (s : State) (r : Nat → Byte), s.Ready → s.initDone = false → s.Receives 9 r →
    exec .init s = .next { s.setUp.fetched .x r with res := 0 }

/-- INIT whose exchange number n never returns is stuck in its priming fetch, with `INIT_DONE` already 1 and `RES`
unchanged (R78, R85); that a hang is a next state is the model's form of it (log 7), and what `S` holds in it is the model's
(log 3). -/
def Obligations.InitHangs : Prop :=
  ∀ (s : State) (r : Nat → Byte) (n : Nat), s.Ready → s.initDone = false → n < 9 → s.Receives n r →
    s.rxByte n = none →
    ∃ t, exec .init s = .next t ∧ t = s.setUp.hungFetch .x r n ∧ t.Stuck ∧ t.initDone = true ∧ t.cs = .low ∧
      t.periphOpen = true ∧ t.res = s.res

/-- The state after INIT completes, element by element (R131, the spec's own inference from R84 and R68). `TRACE` is given
at the operation level, R131's, and whole, where in SOFT mode its bit level is the model's: the pin events of each XFER before
its XFER event, and none for CONFIGURE's SCK drive (log 9). -/
def Obligations.StateAfterInit : Prop :=
  ∀ s t : State, s.Inv → s.Ready → s.initDone = false → exec .init s = .next t → t.Completed →
    t.initDone = true ∧ t.cs = .high ∧
    (s.params.mode = .soft → t.sck = .low ∧ t.mosi = Level.ofBit (s.params.dummy.getLsbD 0)) ∧
    (s.params.mode = .hard → t.pcfg = some ⟨.msbFirst, 8, s.params.spiMode, s.params.spiClock⟩) ∧
    t.periphOpen = false ∧ t.res = 0 ∧ t.xOut = s.xOut ∧ t.yOut = s.yOut ∧
    ∃ r : Nat → Byte,
      t.opTrace = [.cfg, .cs true] ++ (if s.params.hasPresence then [.cfg] else []) ++
        (if s.params.mode = .hard then [.periphOpen, .cs false] else [.cs false]) ++
        [.xfer s.params.cmdX (r 0), .xfer s.params.dummy (r 1), .xfer s.params.dummy (r 2),
         .xfer s.params.cmdX (r 3), .xfer s.params.dummy (r 4), .xfer s.params.dummy (r 5),
         .xfer s.params.cmdX (r 6), .xfer s.params.dummy (r 7), .xfer s.params.dummy (r 8)] ++
        (if s.params.mode = .hard then [.cs true, .periphClose] else [.cs true]) ∧
      t.trace = [.cfg, .cs true] ++ (if s.params.hasPresence then [.cfg] else []) ++
        fetchEvents s.params.mode s.params.cmdX s.params.dummy r

/-! ### IS_BUSY -/

/-- IS_BUSY completes: 0 in SOFT mode, the peripheral's answer in HARD mode, one `BUSYQ` event, and nothing else changed
(R86, R87). -/
def Obligations.IsBusyCompletes : Prop :=
  ∀ s : State, s.Running →
    (s.params.mode = .soft →
      exec .isBusy s = .next { s with res := 0, trace := s.trace ++ [.busyq false] }) ∧
    (s.params.mode = .hard →
      exec .isBusy s =
        .next { s.afterBusy 1 with
          res := if s.busyAt 0 then 1 else 0
          trace := s.trace ++ [.busyq (s.busyAt 0)] })

/-! ### IS_TOUCHED -/

/-- A busy answer short-circuits IS_TOUCHED: result 0, no presence read and no fetch (R90 item 1). -/
def Obligations.BusyIsTouchedAnswersZero : Prop :=
  ∀ s : State, s.Running → s.busyAnswer 0 = true → exec .isTouched s = .next { s.queried with res := 0 }

/-- With a presence line, IS_TOUCHED reads it once and answers 1 exactly when it reads low; it makes no bus transfer and
drives no line (R89, R90 item 2). -/
def Obligations.IsTouchedReadsPresenceLine : Prop :=
  ∀ s : State, s.Running → s.busyAnswer 0 = false → s.params.hasPresence = true →
    exec .isTouched s = .next { s.queried.presenceRead with res := if s.presenceAt 0 then 0 else 1 }

/-- Without a presence line, IS_TOUCHED makes a full Z1 fetch and answers 1 exactly when the filtered sample is at or
above the threshold (R89, R90 items 3 and 5). What `S` keeps afterwards is the model's (log 3), and so
is the place of the pin events in `TRACE` in SOFT mode (log 9). -/
def Obligations.IsTouchedComparesPressure : Prop :=
  ∀ (s : State) (r : Nat → Byte), s.Running → s.busyAnswer 0 = false → s.params.hasPresence = false →
    s.Receives 9 r →
    exec .isTouched s =
      .next { s.queried.fetched .z1 r with
        res := if s.params.z1Threshold.toNat ≤ (fetchValue r).toNat then 1 else 0 }

/-- Without a presence line, IS_TOUCHED whose exchange number n is the first that never returns is stuck in its Z1 fetch
(R78, R90 item 6); that a hang is a next state is the model's form of it (log 7), and what `S` holds in it is the model's
(log 3). -/
def Obligations.IsTouchedHangs : Prop :=
  ∀ (s : State) (r : Nat → Byte) (n : Nat), s.Running → s.busyAnswer 0 = false → s.params.hasPresence = false → n < 9 →
    s.Receives n r → s.rxByte n = none →
    ∃ t, exec .isTouched s = .next t ∧ t = s.queried.hungFetch .z1 r n ∧ t.Stuck ∧ t.cs = .low ∧
      t.periphOpen = true ∧ t.res = s.res

/-- Without a presence line, threshold 0 makes every non-busy IS_TOUCHED that completes answer 1, and a threshold above
4095 makes every IS_TOUCHED that completes answer 0 (R90 item 4, the spec's own inference). -/
def Obligations.ThresholdExtremes : Prop :=
  ∀ s t : State, s.Running → s.params.hasPresence = false → exec .isTouched s = .next t → t.Completed →
    (s.params.z1Threshold = 0 → s.busyAnswer 0 = false → t.res = 1) ∧
    (4095 < s.params.z1Threshold.toNat → t.res = 0)

/-! ### GET_RAW_POINT -/

/-- A busy answer to either query of GET_RAW_POINT gives 0 with the outputs unchanged and no presence read or fetch (R92,
R93 item 1). -/
def Obligations.BusyPointReadAnswersZero : Prop :=
  ∀ s : State, s.Running →
    (s.busyAnswer 0 = true → exec .getRawPoint s = .next { s.queried with res := 0 }) ∧
    (s.busyAnswer 0 = false → s.busyAnswer 1 = true →
      exec .getRawPoint s = .next { s.queried.queried with res := 0 })

/-- When not touched, GET_RAW_POINT answers 0 with the outputs unchanged and no X or Y fetch; without a presence line it
has still made its Z1 fetch (R92, R93 item 2, 90_conflicts.md C2). What `S` keeps afterwards is the model's (log 3), and so
is the place of the pin events in `TRACE` in SOFT mode (log 9). -/
def Obligations.UntouchedPointReadAnswersZero : Prop :=
  ∀ s : State, s.Running → s.busyAnswer 0 = false → s.busyAnswer 1 = false →
    (s.params.hasPresence = true → s.presenceAt 0 = true →
      exec .getRawPoint s = .next { s.queried.queried.presenceRead with res := 0 }) ∧
    (∀ r, s.params.hasPresence = false → s.Receives 9 r →
      (fetchValue r).toNat < s.params.z1Threshold.toNat →
      exec .getRawPoint s = .next { s.queried.queried.fetched .z1 r with res := 0 })

/-- When the presence line shows touch, GET_RAW_POINT fetches X then Y, writes both outputs and answers 1 (R92; default
POINT_POSTCHECK). What `S` keeps afterwards is the model's (log 3), and so
is the place of the pin events in `TRACE` in SOFT mode (log 9). -/
def Obligations.PointReadByPresence : Prop :=
  ∀ (s : State) (r : Nat → Byte), s.Running → s.busyAnswer 0 = false → s.busyAnswer 1 = false →
    s.params.pointPostcheck = false → s.params.hasPresence = true → s.presenceAt 0 = false → s.Receives 18 r →
    exec .getRawPoint s =
      .next { (s.queried.queried.presenceRead.fetched .x r).fetched .y (fun k => r (9 + k)) with
        xOut := fetchValue r, yOut := fetchValue (fun k => r (9 + k)), res := 1 }

/-- When the Z1 pressure shows touch, GET_RAW_POINT fetches X then Y after that Z1 fetch, writes both outputs and answers
1 (R92; default POINT_POSTCHECK). What `S` keeps afterwards is the model's (log 3), and so
is the place of the pin events in `TRACE` in SOFT mode (log 9). -/
def Obligations.PointReadByPressure : Prop :=
  ∀ (s : State) (r : Nat → Byte), s.Running → s.busyAnswer 0 = false → s.busyAnswer 1 = false →
    s.params.pointPostcheck = false → s.params.hasPresence = false → s.Receives 27 r →
    s.params.z1Threshold.toNat ≤ (fetchValue r).toNat →
    exec .getRawPoint s =
      .next { ((s.queried.queried.fetched .z1 r).fetched .x (fun k => r (9 + k))).fetched .y
          (fun k => r (18 + k)) with
        xOut := fetchValue (fun k => r (9 + k)), yOut := fetchValue (fun k => r (18 + k)), res := 1 }

/-- With a presence line that shows touch, GET_RAW_POINT whose exchange number n is the first that never returns is stuck
in its X fetch or, past that, in its Y fetch, with `RES`, `X_OUT` and `Y_OUT` unchanged either way (R78, R93 item 6), whatever
POINT_POSTCHECK is; that a hang is a next state is the model's form of it (log 7), and what `S` holds in it is the model's
(log 3). -/
def Obligations.PointReadHangs : Prop :=
  ∀ (s : State) (r : Nat → Byte) (n : Nat), s.Running → s.busyAnswer 0 = false → s.busyAnswer 1 = false →
    s.params.hasPresence = true → s.presenceAt 0 = false → n < 18 → s.Receives n r → s.rxByte n = none →
    ∃ t, exec .getRawPoint s = .next t ∧ t.Stuck ∧ t.res = s.res ∧ t.xOut = s.xOut ∧ t.yOut = s.yOut ∧
      (n < 9 → t = s.queried.queried.presenceRead.hungFetch .x r n) ∧
      (9 ≤ n → t = (s.queried.queried.presenceRead.fetched .x r).hungFetch .y (fun k => r (9 + k)) (n - 9))

/-- Without a presence line, GET_RAW_POINT whose exchange number n is the first that never returns is stuck in its Z1 fetch
or, if the Z1 value shows touch, in its X fetch or its Y fetch, with `RES`, `X_OUT` and `Y_OUT` unchanged in each case (R78, R90
item 6, R93 item 6), whatever POINT_POSTCHECK is; that a hang is a next state is the model's form of it (log 7), and what `S`
holds in it is the model's (log 3), as is the place of the pin events in `TRACE` (log 9). -/
def Obligations.PressurePointReadHangs : Prop :=
  ∀ (s : State) (r : Nat → Byte) (n : Nat), s.Running → s.busyAnswer 0 = false → s.busyAnswer 1 = false →
    s.params.hasPresence = false → n < 27 → s.Receives n r → s.rxByte n = none →
    (9 ≤ n → s.params.z1Threshold.toNat ≤ (fetchValue r).toNat) →
    ∃ t, exec .getRawPoint s = .next t ∧ t.Stuck ∧ t.res = s.res ∧ t.xOut = s.xOut ∧ t.yOut = s.yOut ∧
      (n < 9 → t = s.queried.queried.hungFetch .z1 r n) ∧
      (9 ≤ n → n < 18 → t = (s.queried.queried.fetched .z1 r).hungFetch .x (fun k => r (9 + k)) (n - 9)) ∧
      (18 ≤ n →
        t = ((s.queried.queried.fetched .z1 r).fetched .x fun k => r (9 + k)).hungFetch .y (fun k => r (18 + k)) (n - 18))

/-- With POINT_POSTCHECK and without a presence line, a touched point read whose last Z1 fetch hangs is stuck in it with both
outputs already written and `RES` unchanged (R78, R90 item 6, R92, D22); that a hang is a next state is the model's form of it
(log 7), and what `S` holds in it is the model's (log 3). -/
def Obligations.PostcheckHangs : Prop :=
  ∀ (s u v : State) (r z : Nat → Byte) (n : Nat), s.Running → s.busyAnswer 0 = false → s.params.pointPostcheck = true →
    s.params.hasPresence = false → touchQuery s.queried = .done true u → u.Receives 18 r →
    v = { (u.fetched .x r).fetched .y (fun k => r (9 + k)) with
      xOut := fetchValue r, yOut := fetchValue (fun k => r (9 + k)) } →
    v.busyAnswer 0 = false → n < 9 → v.Receives n z → v.rxByte n = none →
    ∃ t, exec .getRawPoint s = .next t ∧ t = v.queried.hungFetch .z1 z n ∧ t.Stuck ∧ t.cs = .low ∧
      t.periphOpen = true ∧ t.res = s.res ∧ t.xOut = fetchValue r ∧ t.yOut = fetchValue (fun k => r (9 + k))

/-- With POINT_POSTCHECK a touched point read writes its outputs and then answers what a second run of IS_TOUCHED's body
answers: 0 if that finds the bus busy, else what the presence line or a last Z1 fetch that returns shows (R92, D22). What `S`
keeps afterwards is the model's (log 3), and so is the place of the pin events in `TRACE` in SOFT mode (log 9). -/
def Obligations.PostcheckDecidesResult : Prop :=
  ∀ (s u v : State) (r : Nat → Byte), s.Running → s.busyAnswer 0 = false → s.params.pointPostcheck = true →
    touchQuery s.queried = .done true u → u.Receives 18 r →
    v = { (u.fetched .x r).fetched .y (fun k => r (9 + k)) with
      xOut := fetchValue r, yOut := fetchValue (fun k => r (9 + k)) } →
    (v.busyAnswer 0 = true → exec .getRawPoint s = .next { v.queried with res := 0 }) ∧
    (v.busyAnswer 0 = false → s.params.hasPresence = true →
      exec .getRawPoint s = .next { v.queried.presenceRead with res := if v.presenceAt 0 then 0 else 1 }) ∧
    (∀ z, v.busyAnswer 0 = false → s.params.hasPresence = false → v.Receives 9 z →
      exec .getRawPoint s =
        .next { v.queried.fetched .z1 z with
          res := if s.params.z1Threshold.toNat ≤ (fetchValue z).toNat then 1 else 0 })

/-- Without POINT_POSTCHECK, GET_RAW_POINT writes its outputs only on the path where it returns 1: on every other path, a
hang in either fetch among them, both keep their values (R18, R93 item 6); that a hang is a next state is the model's form of
it (log 7). -/
def Obligations.OutputsWrittenOnlyOnSuccess : Prop :=
  ∀ s t : State, s.Running → s.params.pointPostcheck = false → exec .getRawPoint s = .next t →
    (t.Completed ∧ t.res = 1) ∨ (t.xOut = s.xOut ∧ t.yOut = s.yOut ∧ (t.Completed → t.res = 0))

/-! ### FETCH -/

/-- FETCH completes for every channel, in either mode: one whole fetch frame, the filtered sample in `RES`, and nothing
else changed; in HARD mode on the assumption that its nine exchanges return (R95, R96, R63, R148). What `S` keeps
afterwards is the model's (log 3), and so is the place of the pin events in `TRACE` in SOFT mode (log 9). -/
def Obligations.FetchCompletes : Prop :=
  ∀ (s : State) (ch : Channel) (r : Nat → Byte), s.Running → s.Receives 9 r →
    exec (.fetch ch) s = .next { s.fetched ch r with res := fetchValue r }

/-- The operation-level `TRACE` of a completed FETCH gains exactly SELECT's events, nine XFERs that send CMD, DUMMY, DUMMY
three times, and RELEASE's events; in particular no busy query (R63, R97, R139). -/
def Obligations.FetchIsOneFrame : Prop :=
  ∀ (s t : State) (ch : Channel), s.Running → exec (.fetch ch) s = .next t → t.Completed →
    ∃ r : Nat → Byte,
      t.opTrace = s.opTrace ++
        (if s.params.mode = .hard then [.periphOpen, .cs false] else [.cs false]) ++
        [.xfer (command s.params ch) (r 0), .xfer s.params.dummy (r 1), .xfer s.params.dummy (r 2),
         .xfer (command s.params ch) (r 3), .xfer s.params.dummy (r 4), .xfer s.params.dummy (r 5),
         .xfer (command s.params ch) (r 6), .xfer s.params.dummy (r 7), .xfer s.params.dummy (r 8)] ++
        (if s.params.mode = .hard then [.cs true, .periphClose] else [.cs true]) ∧
      t.res = filterOf (assembleSample (r 1) (r 2)) (assembleSample (r 4) (r 5)) (assembleSample (r 7) (r 8))

/-- FETCH whose exchange number n is the first that never returns is stuck inside its scope: CS = 0, `PERIPH_OPEN` = 1,
the sequencer at transfer n % 3 of cycle n / 3, no XFER event for it, `RES` unchanged (R78, R118); that a hang is a next
state is the model's form of it (log 7). -/
def Obligations.FetchHangs : Prop :=
  ∀ (s : State) (ch : Channel) (r : Nat → Byte) (n : Nat), s.Running → n < 9 → s.Receives n r →
    s.rxByte n = none →
    ∃ t, exec (.fetch ch) s = .next t ∧ t.Stuck ∧ t.cs = .low ∧ t.periphOpen = true ∧ t.res = s.res ∧
      t.seq = .xfer (Fin.ofNat 3 (n / 3)) (Fin.ofNat 3 (n % 3)) ∧
      t.trace = s.trace ++ [.periphOpen, .cs false] ++
        (List.range n).map (fun k => .xfer (if k % 3 = 0 then command s.params ch else s.params.dummy) (r k))

/-! ### Frames -/

/-- What every operation that answers a next state leaves unchanged (R81): the parameters and the caller's later requests;
`INIT_DONE` and `PCFG` unless it is INIT; `X_OUT` and `Y_OUT` unless it is GET_RAW_POINT; SCK and MOSI in HARD mode;
`PERIPH_OPEN` and `PCFG` in SOFT mode; and IS_BUSY, and IS_TOUCHED with a presence line, leave `S` and every line. That
`S` has a value between operations is the model's (log 3), and so is the next state of a hang (log 7). -/
def Obligations.OperationFrame : Prop :=
  ∀ (i : Instr) (s t : State), exec i s = .next t →
    t.params = s.params ∧ t.requests = s.requests ∧ t.resetLine = s.resetLine ∧
    (i ≠ .init → t.initDone = s.initDone ∧ t.pcfg = s.pcfg) ∧
    (i ≠ .getRawPoint → t.xOut = s.xOut ∧ t.yOut = s.yOut) ∧
    (s.params.mode = .hard → t.sck = s.sck ∧ t.mosi = s.mosi) ∧
    (s.params.mode = .soft → t.periphOpen = s.periphOpen ∧ t.pcfg = s.pcfg) ∧
    (i = .isBusy ∨ (i = .isTouched ∧ s.params.hasPresence = true) →
      t.triple = s.triple ∧ t.cs = s.cs ∧ t.sck = s.sck ∧ t.mosi = s.mosi ∧ t.periphOpen = s.periphOpen)

/-- Outside reset, `TRACE` only grows: no step removes or changes an event (R27). -/
def Obligations.TraceOnlyGrows : Prop :=
  ∀ s t : State, step s = .next t → s.resetLine = false → ∃ new, t.trace = s.trace ++ new

/-- No operation reads `TRACE`: with another history an operation does the same and adds the same events (R125). Both runs
have the same answers of the environment, which do not depend on the history: that is the model's (log 4). -/
def Obligations.NoOperationReadsTrace : Prop :=
  ∀ (i : Instr) (s t : State) (history : List Event), exec i s = .next t →
    ∃ new, t.trace = s.trace ++ new ∧
      exec i { s with trace := history } = .next { t with trace := history ++ new }

/-- No operation reads the caller's registers: with other values in `RES`, `X_OUT` and `Y_OUT` every operation adds the same
events, leaves the same lines and control state, and writes the same into each of the three that it writes at all, leaving
each of the others as it was (R20, R81). Both runs have the same answers of the environment, which do not depend on these
registers: that is the model's (log 4). -/
def Obligations.NoOperationReadsResults : Prop :=
  ∀ (i : Instr) (s t : State) (v x y : Word), exec i s = .next t →
    ∃ t', exec i { s with res := v, xOut := x, yOut := y } = .next t' ∧
      { t with res := 0, xOut := 0, yOut := 0 } = { t' with res := 0, xOut := 0, yOut := 0 } ∧
      (t'.res = t.res ∨ (t.res = s.res ∧ t'.res = v)) ∧
      (t'.xOut = t.xOut ∨ (t.xOut = s.xOut ∧ t'.xOut = x)) ∧
      (t'.yOut = t.yOut ∨ (t.yOut = s.yOut ∧ t'.yOut = y))

/-! ### The transport -/

/-- XFER in SOFT mode: the 33 line actions in order, MSB first, MISO sampled with SCK low after MOSI is set; it ends with
SCK low, MOSI at bit 0 and its XFER event, and changes nothing else (R68). It always completes (R79), and shows the 33 line
events (R64, R70): three inferences of the spec's own. That those events are held before the XFER event, of the two forms R70
allows, is the model's (log 9). -/
def Obligations.SoftXferBitFrame : Prop :=
  ∀ (tx : Word) (s : State), s.params.mode = .soft →
    ∃ r : Byte,
      (∀ i, i < 8 → r.getLsbD (7 - i) = s.misoAt i) ∧
      xfer tx s =
        .done (r.setWidth 16) { s.afterMiso 8 with
          sck := .low
          mosi := if tx.getLsbD 0 then .high else .low
          trace := s.trace ++
            [7, 6, 5, 4, 3, 2, 1, 0].flatMap
              (fun i => [.sck false, .mosi (tx.getLsbD i), .miso (r.getLsbD i), .sck true]) ++
            [.sck false, .xfer (tx.setWidth 8) r] }

/-- XFER in HARD mode: it returns what the peripheral answers, zero-extended, with its XFER event, or never returns, with
none; the block's SCK and MOSI are not touched (R69, R78). That an exchange which never returns is a draw, and an end of the
micro-operation, is the model's form of it (log 4, log 7). -/
def Obligations.HardXferDelegates : Prop :=
  ∀ (tx : Word) (s : State), s.params.mode = .hard →
    (∀ r, s.exchangeAt 0 = some r →
      xfer tx s =
        .done (r.setWidth 16) { s.afterExchange 1 with trace := s.trace ++ [.xfer (tx.setWidth 8) r] }) ∧
    (s.exchangeAt 0 = none → xfer tx s = .hung (s.afterExchange 1))

/-- The high byte of the transport word has no effect at all, and the byte received is no function of the byte sent:
whatever is sent, an XFER returns the same word (R60, and R72, the spec's own inference from R67 and R32). That the draws
left are the same and that it hangs alike whatever is sent is the model's: a draw does not depend on the byte sent (log 4). -/
def Obligations.XferReceivesIndependently : Prop :=
  ∀ (tx tx' : Word) (s : State),
    (tx.setWidth 8 = tx'.setWidth 8 → xfer tx s = xfer tx' s) ∧
    (∀ v t, xfer tx s = .done v t → ∃ t', xfer tx' s = .done v t' ∧ t'.env = t.env) ∧
    (∀ t, xfer tx s = .hung t → xfer tx' s = .hung t)

/-- SELECT and RELEASE in both modes, and nothing else changed: in HARD mode the peripheral is opened before CS goes low,
and closed after CS goes high (R73, R74). -/
def Obligations.ScopeOpensAndCloses : Prop :=
  ∀ s : State,
    (s.params.mode = .soft →
      select s = { s with cs := .low, trace := s.trace ++ [.cs false] } ∧
      release s = { s with cs := .high, trace := s.trace ++ [.cs true] }) ∧
    (s.params.mode = .hard →
      select s = { s with cs := .low, periphOpen := true, trace := s.trace ++ [.periphOpen, .cs false] } ∧
      release s = { s with cs := .high, periphOpen := false, trace := s.trace ++ [.cs true, .periphClose] })

/-- Sample assembly (R62): s is the OR of rx_hi << 4 and rx_lo >> 4, which do not overlap, so s[11:4] = rx_hi, s[3:0] =
rx_lo[7:4], s[15:12] = 0 and 0 ≤ s ≤ 4095; rx_hi is the byte a read cycle receives on its second transfer and rx_lo the
one it receives on its third, and the byte received with the command has no effect. -/
def Obligations.SampleAssembly : Prop :=
  (∀ hi lo : Byte,
    assembleSample hi lo = (hi.setWidth 16 <<< 4) ||| (lo.setWidth 16 >>> 4) ∧
    (hi.setWidth 16 <<< 4) &&& (lo.setWidth 16 >>> 4) = 0#16 ∧
    (assembleSample hi lo).extractLsb' 4 8 = hi ∧ (assembleSample hi lo).extractLsb' 0 4 = lo.extractLsb' 4 4 ∧
    (assembleSample hi lo).extractLsb' 12 4 = 0 ∧ (assembleSample hi lo).toNat ≤ 4095) ∧
  ∀ (ch : Channel) (s : State) (rx0 hi lo : Byte),
    s.rxByte 0 = some rx0 → s.rxByte 1 = some hi → s.rxByte 2 = some lo →
    ∃ t, readCycle ch s = .done (assembleSample hi lo) t

/-! ### The filter -/

/-- The filter in closed form: its three cases, which exclude each other and cover everything (R104, the spec's own
inference from R101 to R103; 90_conflicts.md C1). -/
def Obligations.FilterClosedForm : Prop :=
  ∀ a b c : Word, a.toNat ≤ 4095 → b.toNat ≤ 4095 → c.toNat ≤ 4095 →
    ∀ d01 d02 d12 : Int, d01 = |(a.toNat : Int) - b.toNat| → d02 = |(a.toNat : Int) - c.toNat| →
      d12 = |(b.toNat : Int) - c.toNat| →
      ((d01 ≤ d02 ∧ d01 ≤ d12) ∧ ¬(d01 > d02 ∧ d02 ≤ d12) ∧ ¬(d01 > d12 ∧ d02 > d12) ∧
        (filterOf a b c).toNat = (a.toNat + b.toNat) / 2) ∨
      (¬(d01 ≤ d02 ∧ d01 ≤ d12) ∧ (d01 > d02 ∧ d02 ≤ d12) ∧ ¬(d01 > d12 ∧ d02 > d12) ∧
        (filterOf a b c).toNat = (a.toNat + c.toNat) / 2) ∨
      (¬(d01 ≤ d02 ∧ d01 ≤ d12) ∧ ¬(d01 > d02 ∧ d02 ≤ d12) ∧ (d01 > d12 ∧ d02 > d12) ∧
        (filterOf a b c).toNat = (c.toNat + b.toNat) / 2)

/-- The properties of the filter (R105, the spec's own inference from R104; 90_conflicts.md C3): the pair averaged is a
closest pair, ties going first to (s0, s1), then to (s0, s2); the result lies between the two averaged samples, and so between the least and the greatest sample, and is 0 to
4095; two equal samples give their value; swapping s0 and s1 changes nothing but when d01 > d02 = d12; and the result is
not the median in general. -/
def Obligations.FilterProperties : Prop :=
  (∀ a b c : Word, a.toNat ≤ 4095 → b.toNat ≤ 4095 → c.toNat ≤ 4095 →
    (∃ p q : Word,
      ((p = a ∧ q = b ∧ distance a b ≤ distance a c ∧ distance a b ≤ distance b c) ∨
       (p = a ∧ q = c ∧ distance a c < distance a b ∧ distance a c ≤ distance b c) ∨
       (p = c ∧ q = b ∧ distance b c < distance a b ∧ distance b c < distance a c)) ∧
      (filterOf a b c).toNat = (p.toNat + q.toNat) / 2 ∧
      min p.toNat q.toNat ≤ (filterOf a b c).toNat ∧ (filterOf a b c).toNat ≤ max p.toNat q.toNat) ∧
    min a.toNat (min b.toNat c.toNat) ≤ (filterOf a b c).toNat ∧
    (filterOf a b c).toNat ≤ max a.toNat (max b.toNat c.toNat) ∧
    (filterOf a b c).toNat ≤ 4095 ∧
    (a = b → filterOf a b c = a) ∧ (a = c → filterOf a b c = a) ∧ (b = c → filterOf a b c = b) ∧
    (¬(distance a b > distance a c ∧ distance a c = distance b c) → filterOf a b c = filterOf b a c) ∧
    (distance a b > distance a c → distance a c = distance b c →
      (filterOf a b c).toNat = (a.toNat + c.toNat) / 2 ∧ (filterOf b a c).toNat = (b.toNat + c.toNat) / 2)) ∧
  filterOf 0 10 5 = 2

/-- FILTER on the registers returns the filter of their values, overwrites at most `S[0]` or `S[1]`, by `S[2]`, and reads
and writes nothing else (R100, R102). -/
def Obligations.FilterTouchesOnlySamples : Prop :=
  ∀ s : State,
    (State.runFilter s).1 = filterOf s.triple.s0 s.triple.s1 s.triple.s2 ∧
    ((State.runFilter s).2 = s ∨
      (State.runFilter s).2 = { s with triple := { s.triple with s0 := s.triple.s2 } } ∨
      (State.runFilter s).2 = { s with triple := { s.triple with s1 := s.triple.s2 } })

/-! ### Invariants -/

/-- The power-on state meets the three invariants below; that `RES`, the outputs and `S` are 12 bits wide there rests on the
value the model names for them (log 2). -/
def Obligations.ResetMeetsInvariants : Prop :=
  State.reset.Inv ∧ State.reset.ScopesOk ∧ State.reset.PrimesFirst

/-- Every step keeps the invariant, from any state that meets it: the lines, `PERIPH_OPEN`, `PCFG`, the sequencer and
`FAULT` stay related as R23, R25, R26, R34, R112, R118 and R131 say, and `RES`, the outputs and `S` hold 12 bits (R17 to
R19; for `S` between operations the model's, log 3, and for all of them after a reset the model's, log 2). That a hang is a
next state is the model's form of it (log 7). -/
def Obligations.StepKeepsInvariant : Prop :=
  ∀ s t : State, s.Inv → step s = .next t → t.Inv

/-- Every step keeps the scope discipline of `TRACE`: every acquisition scope holds its nine transfers and nothing else and
is closed again, but for the one scope a stuck fetch is in (R75, R97, R46). That a hang is a next state is the model's form
of it (log 7), and so is the place of the pin events in `TRACE` in SOFT mode (log 9). -/
def Obligations.StepKeepsScopeDiscipline : Prop :=
  ∀ s t : State, s.Inv → s.ScopesOk → step s = .next t → t.ScopesOk

/-- Between two operations, once INIT has completed and no fault is recorded: CS = 1, `PERIPH_OPEN` = 0, `SEQ` = IDLE, and
in SOFT mode SCK = 0 (R34, the spec's own inference from R23 to R25 and R75). -/
def Obligations.LinesBetweenOperations : Prop :=
  ∀ (s t : State) (i : Instr), s.Inv → exec i s = .next t → t.Completed →
    t.initDone = true ∧ t.cs = .high ∧ t.periphOpen = false ∧ t.seq = .idle ∧
      (t.params.mode = .soft → t.sck = .low)

/-- Every step keeps the order of R133: whenever the presence line is read, a whole fetch has been made before, since INIT
primes the controller and nothing else runs before INIT (R133, R143). -/
def Obligations.StepKeepsPrimingFirst : Prop :=
  ∀ s t : State, s.Inv → s.PrimesFirst → step s = .next t → t.PrimesFirst

/-- The sequencer's one order (R24): from IDLE through SEL, the nine transfers (i outer, j inner), REL and FILT back to
IDLE. -/
def Obligations.SequencerOrder : Prop :=
  (List.range 14).map (fun k => Nat.repeat Seq.next k Seq.idle) =
    [.idle, .sel, .xfer 0 0, .xfer 0 1, .xfer 0 2, .xfer 1 0, .xfer 1 1, .xfer 1 2, .xfer 2 0, .xfer 2 1, .xfer 2 2,
     .rel, .filt, .idle]
end

