-- ==== Sys2Proof/Laws/State.lean ====
section
/-! SUPPORT. One lemma per field per update of State, so that no later proof unfolds a record update. -/

namespace Sys2Proof.Machine.State

variable (s : State)

/-! #### emit -/

@[simp] theorem emit_params (e : Event) : (s.emit e).params = s.params := rfl
@[simp] theorem emit_requests (e : Event) : (s.emit e).requests = s.requests := rfl
@[simp] theorem emit_resetLine (e : Event) : (s.emit e).resetLine = s.resetLine := rfl
@[simp] theorem emit_env (e : Event) : (s.emit e).env = s.env := rfl
@[simp] theorem emit_res (e : Event) : (s.emit e).res = s.res := rfl
@[simp] theorem emit_xOut (e : Event) : (s.emit e).xOut = s.xOut := rfl
@[simp] theorem emit_yOut (e : Event) : (s.emit e).yOut = s.yOut := rfl
@[simp] theorem emit_triple (e : Event) : (s.emit e).triple = s.triple := rfl
@[simp] theorem emit_initDone (e : Event) : (s.emit e).initDone = s.initDone := rfl
@[simp] theorem emit_fault (e : Event) : (s.emit e).fault = s.fault := rfl
@[simp] theorem emit_periphOpen (e : Event) : (s.emit e).periphOpen = s.periphOpen := rfl
@[simp] theorem emit_seq (e : Event) : (s.emit e).seq = s.seq := rfl
@[simp] theorem emit_cs (e : Event) : (s.emit e).cs = s.cs := rfl
@[simp] theorem emit_sck (e : Event) : (s.emit e).sck = s.sck := rfl
@[simp] theorem emit_mosi (e : Event) : (s.emit e).mosi = s.mosi := rfl
@[simp] theorem emit_pcfg (e : Event) : (s.emit e).pcfg = s.pcfg := rfl
@[simp] theorem emit_trace (e : Event) : (s.emit e).trace = s.trace ++ [e] := rfl

/-! #### driveCs -/

@[simp] theorem driveCs_params (b : Bool) : (s.driveCs b).params = s.params := rfl
@[simp] theorem driveCs_requests (b : Bool) : (s.driveCs b).requests = s.requests := rfl
@[simp] theorem driveCs_resetLine (b : Bool) : (s.driveCs b).resetLine = s.resetLine := rfl
@[simp] theorem driveCs_env (b : Bool) : (s.driveCs b).env = s.env := rfl
@[simp] theorem driveCs_res (b : Bool) : (s.driveCs b).res = s.res := rfl
@[simp] theorem driveCs_xOut (b : Bool) : (s.driveCs b).xOut = s.xOut := rfl
@[simp] theorem driveCs_yOut (b : Bool) : (s.driveCs b).yOut = s.yOut := rfl
@[simp] theorem driveCs_triple (b : Bool) : (s.driveCs b).triple = s.triple := rfl
@[simp] theorem driveCs_initDone (b : Bool) : (s.driveCs b).initDone = s.initDone := rfl
@[simp] theorem driveCs_fault (b : Bool) : (s.driveCs b).fault = s.fault := rfl
@[simp] theorem driveCs_periphOpen (b : Bool) : (s.driveCs b).periphOpen = s.periphOpen := rfl
@[simp] theorem driveCs_seq (b : Bool) : (s.driveCs b).seq = s.seq := rfl
@[simp] theorem driveCs_cs (b : Bool) : (s.driveCs b).cs = Level.ofBit b := rfl
@[simp] theorem driveCs_sck (b : Bool) : (s.driveCs b).sck = s.sck := rfl
@[simp] theorem driveCs_mosi (b : Bool) : (s.driveCs b).mosi = s.mosi := rfl
@[simp] theorem driveCs_pcfg (b : Bool) : (s.driveCs b).pcfg = s.pcfg := rfl
@[simp] theorem driveCs_trace (b : Bool) : (s.driveCs b).trace = s.trace ++ [.cs b] := rfl

/-! #### setSck -/

@[simp] theorem setSck_params (b : Bool) : (s.setSck b).params = s.params := rfl
@[simp] theorem setSck_requests (b : Bool) : (s.setSck b).requests = s.requests := rfl
@[simp] theorem setSck_resetLine (b : Bool) : (s.setSck b).resetLine = s.resetLine := rfl
@[simp] theorem setSck_env (b : Bool) : (s.setSck b).env = s.env := rfl
@[simp] theorem setSck_res (b : Bool) : (s.setSck b).res = s.res := rfl
@[simp] theorem setSck_xOut (b : Bool) : (s.setSck b).xOut = s.xOut := rfl
@[simp] theorem setSck_yOut (b : Bool) : (s.setSck b).yOut = s.yOut := rfl
@[simp] theorem setSck_triple (b : Bool) : (s.setSck b).triple = s.triple := rfl
@[simp] theorem setSck_initDone (b : Bool) : (s.setSck b).initDone = s.initDone := rfl
@[simp] theorem setSck_fault (b : Bool) : (s.setSck b).fault = s.fault := rfl
@[simp] theorem setSck_periphOpen (b : Bool) : (s.setSck b).periphOpen = s.periphOpen := rfl
@[simp] theorem setSck_seq (b : Bool) : (s.setSck b).seq = s.seq := rfl
@[simp] theorem setSck_cs (b : Bool) : (s.setSck b).cs = s.cs := rfl
@[simp] theorem setSck_sck (b : Bool) : (s.setSck b).sck = Level.ofBit b := rfl
@[simp] theorem setSck_mosi (b : Bool) : (s.setSck b).mosi = s.mosi := rfl
@[simp] theorem setSck_pcfg (b : Bool) : (s.setSck b).pcfg = s.pcfg := rfl
@[simp] theorem setSck_trace (b : Bool) : (s.setSck b).trace = s.trace := rfl

/-! #### driveSck -/

@[simp] theorem driveSck_params (b : Bool) : (s.driveSck b).params = s.params := rfl
@[simp] theorem driveSck_requests (b : Bool) : (s.driveSck b).requests = s.requests := rfl
@[simp] theorem driveSck_resetLine (b : Bool) : (s.driveSck b).resetLine = s.resetLine := rfl
@[simp] theorem driveSck_env (b : Bool) : (s.driveSck b).env = s.env := rfl
@[simp] theorem driveSck_res (b : Bool) : (s.driveSck b).res = s.res := rfl
@[simp] theorem driveSck_xOut (b : Bool) : (s.driveSck b).xOut = s.xOut := rfl
@[simp] theorem driveSck_yOut (b : Bool) : (s.driveSck b).yOut = s.yOut := rfl
@[simp] theorem driveSck_triple (b : Bool) : (s.driveSck b).triple = s.triple := rfl
@[simp] theorem driveSck_initDone (b : Bool) : (s.driveSck b).initDone = s.initDone := rfl
@[simp] theorem driveSck_fault (b : Bool) : (s.driveSck b).fault = s.fault := rfl
@[simp] theorem driveSck_periphOpen (b : Bool) : (s.driveSck b).periphOpen = s.periphOpen := rfl
@[simp] theorem driveSck_seq (b : Bool) : (s.driveSck b).seq = s.seq := rfl
@[simp] theorem driveSck_cs (b : Bool) : (s.driveSck b).cs = s.cs := rfl
@[simp] theorem driveSck_sck (b : Bool) : (s.driveSck b).sck = Level.ofBit b := rfl
@[simp] theorem driveSck_mosi (b : Bool) : (s.driveSck b).mosi = s.mosi := rfl
@[simp] theorem driveSck_pcfg (b : Bool) : (s.driveSck b).pcfg = s.pcfg := rfl
@[simp] theorem driveSck_trace (b : Bool) : (s.driveSck b).trace = s.trace ++ [.sck b] := rfl

/-! #### driveMosi -/

@[simp] theorem driveMosi_params (b : Bool) : (s.driveMosi b).params = s.params := rfl
@[simp] theorem driveMosi_requests (b : Bool) : (s.driveMosi b).requests = s.requests := rfl
@[simp] theorem driveMosi_resetLine (b : Bool) : (s.driveMosi b).resetLine = s.resetLine := rfl
@[simp] theorem driveMosi_env (b : Bool) : (s.driveMosi b).env = s.env := rfl
@[simp] theorem driveMosi_res (b : Bool) : (s.driveMosi b).res = s.res := rfl
@[simp] theorem driveMosi_xOut (b : Bool) : (s.driveMosi b).xOut = s.xOut := rfl
@[simp] theorem driveMosi_yOut (b : Bool) : (s.driveMosi b).yOut = s.yOut := rfl
@[simp] theorem driveMosi_triple (b : Bool) : (s.driveMosi b).triple = s.triple := rfl
@[simp] theorem driveMosi_initDone (b : Bool) : (s.driveMosi b).initDone = s.initDone := rfl
@[simp] theorem driveMosi_fault (b : Bool) : (s.driveMosi b).fault = s.fault := rfl
@[simp] theorem driveMosi_periphOpen (b : Bool) : (s.driveMosi b).periphOpen = s.periphOpen := rfl
@[simp] theorem driveMosi_seq (b : Bool) : (s.driveMosi b).seq = s.seq := rfl
@[simp] theorem driveMosi_cs (b : Bool) : (s.driveMosi b).cs = s.cs := rfl
@[simp] theorem driveMosi_sck (b : Bool) : (s.driveMosi b).sck = s.sck := rfl
@[simp] theorem driveMosi_mosi (b : Bool) : (s.driveMosi b).mosi = Level.ofBit b := rfl
@[simp] theorem driveMosi_pcfg (b : Bool) : (s.driveMosi b).pcfg = s.pcfg := rfl
@[simp] theorem driveMosi_trace (b : Bool) : (s.driveMosi b).trace = s.trace ++ [.mosi b] := rfl

/-! #### afterMiso -/

@[simp] theorem afterMiso_params (n : Nat) : (s.afterMiso n).params = s.params := rfl
@[simp] theorem afterMiso_requests (n : Nat) : (s.afterMiso n).requests = s.requests := rfl
@[simp] theorem afterMiso_resetLine (n : Nat) : (s.afterMiso n).resetLine = s.resetLine := rfl
@[simp] theorem afterMiso_env (n : Nat) : (s.afterMiso n).env = { s.env with miso := s.env.miso.after n } := rfl
@[simp] theorem afterMiso_res (n : Nat) : (s.afterMiso n).res = s.res := rfl
@[simp] theorem afterMiso_xOut (n : Nat) : (s.afterMiso n).xOut = s.xOut := rfl
@[simp] theorem afterMiso_yOut (n : Nat) : (s.afterMiso n).yOut = s.yOut := rfl
@[simp] theorem afterMiso_triple (n : Nat) : (s.afterMiso n).triple = s.triple := rfl
@[simp] theorem afterMiso_initDone (n : Nat) : (s.afterMiso n).initDone = s.initDone := rfl
@[simp] theorem afterMiso_fault (n : Nat) : (s.afterMiso n).fault = s.fault := rfl
@[simp] theorem afterMiso_periphOpen (n : Nat) : (s.afterMiso n).periphOpen = s.periphOpen := rfl
@[simp] theorem afterMiso_seq (n : Nat) : (s.afterMiso n).seq = s.seq := rfl
@[simp] theorem afterMiso_cs (n : Nat) : (s.afterMiso n).cs = s.cs := rfl
@[simp] theorem afterMiso_sck (n : Nat) : (s.afterMiso n).sck = s.sck := rfl
@[simp] theorem afterMiso_mosi (n : Nat) : (s.afterMiso n).mosi = s.mosi := rfl
@[simp] theorem afterMiso_pcfg (n : Nat) : (s.afterMiso n).pcfg = s.pcfg := rfl
@[simp] theorem afterMiso_trace (n : Nat) : (s.afterMiso n).trace = s.trace := rfl

/-! #### afterExchange -/

@[simp] theorem afterExchange_params (n : Nat) : (s.afterExchange n).params = s.params := rfl
@[simp] theorem afterExchange_requests (n : Nat) : (s.afterExchange n).requests = s.requests := rfl
@[simp] theorem afterExchange_resetLine (n : Nat) : (s.afterExchange n).resetLine = s.resetLine := rfl
@[simp] theorem afterExchange_env (n : Nat) : (s.afterExchange n).env = { s.env with exchange := s.env.exchange.after n } := rfl
@[simp] theorem afterExchange_res (n : Nat) : (s.afterExchange n).res = s.res := rfl
@[simp] theorem afterExchange_xOut (n : Nat) : (s.afterExchange n).xOut = s.xOut := rfl
@[simp] theorem afterExchange_yOut (n : Nat) : (s.afterExchange n).yOut = s.yOut := rfl
@[simp] theorem afterExchange_triple (n : Nat) : (s.afterExchange n).triple = s.triple := rfl
@[simp] theorem afterExchange_initDone (n : Nat) : (s.afterExchange n).initDone = s.initDone := rfl
@[simp] theorem afterExchange_fault (n : Nat) : (s.afterExchange n).fault = s.fault := rfl
@[simp] theorem afterExchange_periphOpen (n : Nat) : (s.afterExchange n).periphOpen = s.periphOpen := rfl
@[simp] theorem afterExchange_seq (n : Nat) : (s.afterExchange n).seq = s.seq := rfl
@[simp] theorem afterExchange_cs (n : Nat) : (s.afterExchange n).cs = s.cs := rfl
@[simp] theorem afterExchange_sck (n : Nat) : (s.afterExchange n).sck = s.sck := rfl
@[simp] theorem afterExchange_mosi (n : Nat) : (s.afterExchange n).mosi = s.mosi := rfl
@[simp] theorem afterExchange_pcfg (n : Nat) : (s.afterExchange n).pcfg = s.pcfg := rfl
@[simp] theorem afterExchange_trace (n : Nat) : (s.afterExchange n).trace = s.trace := rfl

/-! #### afterBusy -/

@[simp] theorem afterBusy_params (n : Nat) : (s.afterBusy n).params = s.params := rfl
@[simp] theorem afterBusy_requests (n : Nat) : (s.afterBusy n).requests = s.requests := rfl
@[simp] theorem afterBusy_resetLine (n : Nat) : (s.afterBusy n).resetLine = s.resetLine := rfl
@[simp] theorem afterBusy_env (n : Nat) : (s.afterBusy n).env = { s.env with busy := s.env.busy.after n } := rfl
@[simp] theorem afterBusy_res (n : Nat) : (s.afterBusy n).res = s.res := rfl
@[simp] theorem afterBusy_xOut (n : Nat) : (s.afterBusy n).xOut = s.xOut := rfl
@[simp] theorem afterBusy_yOut (n : Nat) : (s.afterBusy n).yOut = s.yOut := rfl
@[simp] theorem afterBusy_triple (n : Nat) : (s.afterBusy n).triple = s.triple := rfl
@[simp] theorem afterBusy_initDone (n : Nat) : (s.afterBusy n).initDone = s.initDone := rfl
@[simp] theorem afterBusy_fault (n : Nat) : (s.afterBusy n).fault = s.fault := rfl
@[simp] theorem afterBusy_periphOpen (n : Nat) : (s.afterBusy n).periphOpen = s.periphOpen := rfl
@[simp] theorem afterBusy_seq (n : Nat) : (s.afterBusy n).seq = s.seq := rfl
@[simp] theorem afterBusy_cs (n : Nat) : (s.afterBusy n).cs = s.cs := rfl
@[simp] theorem afterBusy_sck (n : Nat) : (s.afterBusy n).sck = s.sck := rfl
@[simp] theorem afterBusy_mosi (n : Nat) : (s.afterBusy n).mosi = s.mosi := rfl
@[simp] theorem afterBusy_pcfg (n : Nat) : (s.afterBusy n).pcfg = s.pcfg := rfl
@[simp] theorem afterBusy_trace (n : Nat) : (s.afterBusy n).trace = s.trace := rfl

/-! #### afterPresence -/

@[simp] theorem afterPresence_params (n : Nat) : (s.afterPresence n).params = s.params := rfl
@[simp] theorem afterPresence_requests (n : Nat) : (s.afterPresence n).requests = s.requests := rfl
@[simp] theorem afterPresence_resetLine (n : Nat) : (s.afterPresence n).resetLine = s.resetLine := rfl
@[simp] theorem afterPresence_env (n : Nat) : (s.afterPresence n).env = { s.env with presence := s.env.presence.after n } := rfl
@[simp] theorem afterPresence_res (n : Nat) : (s.afterPresence n).res = s.res := rfl
@[simp] theorem afterPresence_xOut (n : Nat) : (s.afterPresence n).xOut = s.xOut := rfl
@[simp] theorem afterPresence_yOut (n : Nat) : (s.afterPresence n).yOut = s.yOut := rfl
@[simp] theorem afterPresence_triple (n : Nat) : (s.afterPresence n).triple = s.triple := rfl
@[simp] theorem afterPresence_initDone (n : Nat) : (s.afterPresence n).initDone = s.initDone := rfl
@[simp] theorem afterPresence_fault (n : Nat) : (s.afterPresence n).fault = s.fault := rfl
@[simp] theorem afterPresence_periphOpen (n : Nat) : (s.afterPresence n).periphOpen = s.periphOpen := rfl
@[simp] theorem afterPresence_seq (n : Nat) : (s.afterPresence n).seq = s.seq := rfl
@[simp] theorem afterPresence_cs (n : Nat) : (s.afterPresence n).cs = s.cs := rfl
@[simp] theorem afterPresence_sck (n : Nat) : (s.afterPresence n).sck = s.sck := rfl
@[simp] theorem afterPresence_mosi (n : Nat) : (s.afterPresence n).mosi = s.mosi := rfl
@[simp] theorem afterPresence_pcfg (n : Nat) : (s.afterPresence n).pcfg = s.pcfg := rfl
@[simp] theorem afterPresence_trace (n : Nat) : (s.afterPresence n).trace = s.trace := rfl

/-! #### complete -/

@[simp] theorem complete_params (v : Word) : (s.complete v).params = s.params := rfl
@[simp] theorem complete_requests (v : Word) : (s.complete v).requests = s.requests := rfl
@[simp] theorem complete_resetLine (v : Word) : (s.complete v).resetLine = s.resetLine := rfl
@[simp] theorem complete_env (v : Word) : (s.complete v).env = s.env := rfl
@[simp] theorem complete_res (v : Word) : (s.complete v).res = v := rfl
@[simp] theorem complete_xOut (v : Word) : (s.complete v).xOut = s.xOut := rfl
@[simp] theorem complete_yOut (v : Word) : (s.complete v).yOut = s.yOut := rfl
@[simp] theorem complete_triple (v : Word) : (s.complete v).triple = s.triple := rfl
@[simp] theorem complete_initDone (v : Word) : (s.complete v).initDone = s.initDone := rfl
@[simp] theorem complete_fault (v : Word) : (s.complete v).fault = s.fault := rfl
@[simp] theorem complete_periphOpen (v : Word) : (s.complete v).periphOpen = s.periphOpen := rfl
@[simp] theorem complete_seq (v : Word) : (s.complete v).seq = s.seq := rfl
@[simp] theorem complete_cs (v : Word) : (s.complete v).cs = s.cs := rfl
@[simp] theorem complete_sck (v : Word) : (s.complete v).sck = s.sck := rfl
@[simp] theorem complete_mosi (v : Word) : (s.complete v).mosi = s.mosi := rfl
@[simp] theorem complete_pcfg (v : Word) : (s.complete v).pcfg = s.pcfg := rfl
@[simp] theorem complete_trace (v : Word) : (s.complete v).trace = s.trace := rfl

/-! #### writePoint -/

@[simp] theorem writePoint_params (x y : Word) : (s.writePoint x y).params = s.params := rfl
@[simp] theorem writePoint_requests (x y : Word) : (s.writePoint x y).requests = s.requests := rfl
@[simp] theorem writePoint_resetLine (x y : Word) : (s.writePoint x y).resetLine = s.resetLine := rfl
@[simp] theorem writePoint_env (x y : Word) : (s.writePoint x y).env = s.env := rfl
@[simp] theorem writePoint_res (x y : Word) : (s.writePoint x y).res = s.res := rfl
@[simp] theorem writePoint_xOut (x y : Word) : (s.writePoint x y).xOut = x := rfl
@[simp] theorem writePoint_yOut (x y : Word) : (s.writePoint x y).yOut = y := rfl
@[simp] theorem writePoint_triple (x y : Word) : (s.writePoint x y).triple = s.triple := rfl
@[simp] theorem writePoint_initDone (x y : Word) : (s.writePoint x y).initDone = s.initDone := rfl
@[simp] theorem writePoint_fault (x y : Word) : (s.writePoint x y).fault = s.fault := rfl
@[simp] theorem writePoint_periphOpen (x y : Word) : (s.writePoint x y).periphOpen = s.periphOpen := rfl
@[simp] theorem writePoint_seq (x y : Word) : (s.writePoint x y).seq = s.seq := rfl
@[simp] theorem writePoint_cs (x y : Word) : (s.writePoint x y).cs = s.cs := rfl
@[simp] theorem writePoint_sck (x y : Word) : (s.writePoint x y).sck = s.sck := rfl
@[simp] theorem writePoint_mosi (x y : Word) : (s.writePoint x y).mosi = s.mosi := rfl
@[simp] theorem writePoint_pcfg (x y : Word) : (s.writePoint x y).pcfg = s.pcfg := rfl
@[simp] theorem writePoint_trace (x y : Word) : (s.writePoint x y).trace = s.trace := rfl

/-! #### setSample0 -/

@[simp] theorem setSample0_params (v : Word) : (s.setSample0 v).params = s.params := rfl
@[simp] theorem setSample0_requests (v : Word) : (s.setSample0 v).requests = s.requests := rfl
@[simp] theorem setSample0_resetLine (v : Word) : (s.setSample0 v).resetLine = s.resetLine := rfl
@[simp] theorem setSample0_env (v : Word) : (s.setSample0 v).env = s.env := rfl
@[simp] theorem setSample0_res (v : Word) : (s.setSample0 v).res = s.res := rfl
@[simp] theorem setSample0_xOut (v : Word) : (s.setSample0 v).xOut = s.xOut := rfl
@[simp] theorem setSample0_yOut (v : Word) : (s.setSample0 v).yOut = s.yOut := rfl
@[simp] theorem setSample0_triple (v : Word) : (s.setSample0 v).triple = { s.triple with s0 := v } := rfl
@[simp] theorem setSample0_initDone (v : Word) : (s.setSample0 v).initDone = s.initDone := rfl
@[simp] theorem setSample0_fault (v : Word) : (s.setSample0 v).fault = s.fault := rfl
@[simp] theorem setSample0_periphOpen (v : Word) : (s.setSample0 v).periphOpen = s.periphOpen := rfl
@[simp] theorem setSample0_seq (v : Word) : (s.setSample0 v).seq = s.seq := rfl
@[simp] theorem setSample0_cs (v : Word) : (s.setSample0 v).cs = s.cs := rfl
@[simp] theorem setSample0_sck (v : Word) : (s.setSample0 v).sck = s.sck := rfl
@[simp] theorem setSample0_mosi (v : Word) : (s.setSample0 v).mosi = s.mosi := rfl
@[simp] theorem setSample0_pcfg (v : Word) : (s.setSample0 v).pcfg = s.pcfg := rfl
@[simp] theorem setSample0_trace (v : Word) : (s.setSample0 v).trace = s.trace := rfl

/-! #### setSample1 -/

@[simp] theorem setSample1_params (v : Word) : (s.setSample1 v).params = s.params := rfl
@[simp] theorem setSample1_requests (v : Word) : (s.setSample1 v).requests = s.requests := rfl
@[simp] theorem setSample1_resetLine (v : Word) : (s.setSample1 v).resetLine = s.resetLine := rfl
@[simp] theorem setSample1_env (v : Word) : (s.setSample1 v).env = s.env := rfl
@[simp] theorem setSample1_res (v : Word) : (s.setSample1 v).res = s.res := rfl
@[simp] theorem setSample1_xOut (v : Word) : (s.setSample1 v).xOut = s.xOut := rfl
@[simp] theorem setSample1_yOut (v : Word) : (s.setSample1 v).yOut = s.yOut := rfl
@[simp] theorem setSample1_triple (v : Word) : (s.setSample1 v).triple = { s.triple with s1 := v } := rfl
@[simp] theorem setSample1_initDone (v : Word) : (s.setSample1 v).initDone = s.initDone := rfl
@[simp] theorem setSample1_fault (v : Word) : (s.setSample1 v).fault = s.fault := rfl
@[simp] theorem setSample1_periphOpen (v : Word) : (s.setSample1 v).periphOpen = s.periphOpen := rfl
@[simp] theorem setSample1_seq (v : Word) : (s.setSample1 v).seq = s.seq := rfl
@[simp] theorem setSample1_cs (v : Word) : (s.setSample1 v).cs = s.cs := rfl
@[simp] theorem setSample1_sck (v : Word) : (s.setSample1 v).sck = s.sck := rfl
@[simp] theorem setSample1_mosi (v : Word) : (s.setSample1 v).mosi = s.mosi := rfl
@[simp] theorem setSample1_pcfg (v : Word) : (s.setSample1 v).pcfg = s.pcfg := rfl
@[simp] theorem setSample1_trace (v : Word) : (s.setSample1 v).trace = s.trace := rfl

/-! #### setSample2 -/

@[simp] theorem setSample2_params (v : Word) : (s.setSample2 v).params = s.params := rfl
@[simp] theorem setSample2_requests (v : Word) : (s.setSample2 v).requests = s.requests := rfl
@[simp] theorem setSample2_resetLine (v : Word) : (s.setSample2 v).resetLine = s.resetLine := rfl
@[simp] theorem setSample2_env (v : Word) : (s.setSample2 v).env = s.env := rfl
@[simp] theorem setSample2_res (v : Word) : (s.setSample2 v).res = s.res := rfl
@[simp] theorem setSample2_xOut (v : Word) : (s.setSample2 v).xOut = s.xOut := rfl
@[simp] theorem setSample2_yOut (v : Word) : (s.setSample2 v).yOut = s.yOut := rfl
@[simp] theorem setSample2_triple (v : Word) : (s.setSample2 v).triple = { s.triple with s2 := v } := rfl
@[simp] theorem setSample2_initDone (v : Word) : (s.setSample2 v).initDone = s.initDone := rfl
@[simp] theorem setSample2_fault (v : Word) : (s.setSample2 v).fault = s.fault := rfl
@[simp] theorem setSample2_periphOpen (v : Word) : (s.setSample2 v).periphOpen = s.periphOpen := rfl
@[simp] theorem setSample2_seq (v : Word) : (s.setSample2 v).seq = s.seq := rfl
@[simp] theorem setSample2_cs (v : Word) : (s.setSample2 v).cs = s.cs := rfl
@[simp] theorem setSample2_sck (v : Word) : (s.setSample2 v).sck = s.sck := rfl
@[simp] theorem setSample2_mosi (v : Word) : (s.setSample2 v).mosi = s.mosi := rfl
@[simp] theorem setSample2_pcfg (v : Word) : (s.setSample2 v).pcfg = s.pcfg := rfl
@[simp] theorem setSample2_trace (v : Word) : (s.setSample2 v).trace = s.trace := rfl

/-! #### setInitDone -/

@[simp] theorem setInitDone_params : s.setInitDone.params = s.params := rfl
@[simp] theorem setInitDone_requests : s.setInitDone.requests = s.requests := rfl
@[simp] theorem setInitDone_resetLine : s.setInitDone.resetLine = s.resetLine := rfl
@[simp] theorem setInitDone_env : s.setInitDone.env = s.env := rfl
@[simp] theorem setInitDone_res : s.setInitDone.res = s.res := rfl
@[simp] theorem setInitDone_xOut : s.setInitDone.xOut = s.xOut := rfl
@[simp] theorem setInitDone_yOut : s.setInitDone.yOut = s.yOut := rfl
@[simp] theorem setInitDone_triple : s.setInitDone.triple = s.triple := rfl
@[simp] theorem setInitDone_initDone : s.setInitDone.initDone = true := rfl
@[simp] theorem setInitDone_fault : s.setInitDone.fault = s.fault := rfl
@[simp] theorem setInitDone_periphOpen : s.setInitDone.periphOpen = s.periphOpen := rfl
@[simp] theorem setInitDone_seq : s.setInitDone.seq = s.seq := rfl
@[simp] theorem setInitDone_cs : s.setInitDone.cs = s.cs := rfl
@[simp] theorem setInitDone_sck : s.setInitDone.sck = s.sck := rfl
@[simp] theorem setInitDone_mosi : s.setInitDone.mosi = s.mosi := rfl
@[simp] theorem setInitDone_pcfg : s.setInitDone.pcfg = s.pcfg := rfl
@[simp] theorem setInitDone_trace : s.setInitDone.trace = s.trace := rfl

/-! #### setPeriphOpen -/

@[simp] theorem setPeriphOpen_params (b : Bool) : (s.setPeriphOpen b).params = s.params := rfl
@[simp] theorem setPeriphOpen_requests (b : Bool) : (s.setPeriphOpen b).requests = s.requests := rfl
@[simp] theorem setPeriphOpen_resetLine (b : Bool) : (s.setPeriphOpen b).resetLine = s.resetLine := rfl
@[simp] theorem setPeriphOpen_env (b : Bool) : (s.setPeriphOpen b).env = s.env := rfl
@[simp] theorem setPeriphOpen_res (b : Bool) : (s.setPeriphOpen b).res = s.res := rfl
@[simp] theorem setPeriphOpen_xOut (b : Bool) : (s.setPeriphOpen b).xOut = s.xOut := rfl
@[simp] theorem setPeriphOpen_yOut (b : Bool) : (s.setPeriphOpen b).yOut = s.yOut := rfl
@[simp] theorem setPeriphOpen_triple (b : Bool) : (s.setPeriphOpen b).triple = s.triple := rfl
@[simp] theorem setPeriphOpen_initDone (b : Bool) : (s.setPeriphOpen b).initDone = s.initDone := rfl
@[simp] theorem setPeriphOpen_fault (b : Bool) : (s.setPeriphOpen b).fault = s.fault := rfl
@[simp] theorem setPeriphOpen_periphOpen (b : Bool) : (s.setPeriphOpen b).periphOpen = b := rfl
@[simp] theorem setPeriphOpen_seq (b : Bool) : (s.setPeriphOpen b).seq = s.seq := rfl
@[simp] theorem setPeriphOpen_cs (b : Bool) : (s.setPeriphOpen b).cs = s.cs := rfl
@[simp] theorem setPeriphOpen_sck (b : Bool) : (s.setPeriphOpen b).sck = s.sck := rfl
@[simp] theorem setPeriphOpen_mosi (b : Bool) : (s.setPeriphOpen b).mosi = s.mosi := rfl
@[simp] theorem setPeriphOpen_pcfg (b : Bool) : (s.setPeriphOpen b).pcfg = s.pcfg := rfl
@[simp] theorem setPeriphOpen_trace (b : Bool) : (s.setPeriphOpen b).trace = s.trace := rfl

/-! #### setPcfg -/

@[simp] theorem setPcfg_params (c : PeriphConfig) : (s.setPcfg c).params = s.params := rfl
@[simp] theorem setPcfg_requests (c : PeriphConfig) : (s.setPcfg c).requests = s.requests := rfl
@[simp] theorem setPcfg_resetLine (c : PeriphConfig) : (s.setPcfg c).resetLine = s.resetLine := rfl
@[simp] theorem setPcfg_env (c : PeriphConfig) : (s.setPcfg c).env = s.env := rfl
@[simp] theorem setPcfg_res (c : PeriphConfig) : (s.setPcfg c).res = s.res := rfl
@[simp] theorem setPcfg_xOut (c : PeriphConfig) : (s.setPcfg c).xOut = s.xOut := rfl
@[simp] theorem setPcfg_yOut (c : PeriphConfig) : (s.setPcfg c).yOut = s.yOut := rfl
@[simp] theorem setPcfg_triple (c : PeriphConfig) : (s.setPcfg c).triple = s.triple := rfl
@[simp] theorem setPcfg_initDone (c : PeriphConfig) : (s.setPcfg c).initDone = s.initDone := rfl
@[simp] theorem setPcfg_fault (c : PeriphConfig) : (s.setPcfg c).fault = s.fault := rfl
@[simp] theorem setPcfg_periphOpen (c : PeriphConfig) : (s.setPcfg c).periphOpen = s.periphOpen := rfl
@[simp] theorem setPcfg_seq (c : PeriphConfig) : (s.setPcfg c).seq = s.seq := rfl
@[simp] theorem setPcfg_cs (c : PeriphConfig) : (s.setPcfg c).cs = s.cs := rfl
@[simp] theorem setPcfg_sck (c : PeriphConfig) : (s.setPcfg c).sck = s.sck := rfl
@[simp] theorem setPcfg_mosi (c : PeriphConfig) : (s.setPcfg c).mosi = s.mosi := rfl
@[simp] theorem setPcfg_pcfg (c : PeriphConfig) : (s.setPcfg c).pcfg = some c := rfl
@[simp] theorem setPcfg_trace (c : PeriphConfig) : (s.setPcfg c).trace = s.trace := rfl

/-! #### advance -/

@[simp] theorem advance_params : s.advance.params = s.params := rfl
@[simp] theorem advance_requests : s.advance.requests = s.requests := rfl
@[simp] theorem advance_resetLine : s.advance.resetLine = s.resetLine := rfl
@[simp] theorem advance_env : s.advance.env = s.env := rfl
@[simp] theorem advance_res : s.advance.res = s.res := rfl
@[simp] theorem advance_xOut : s.advance.xOut = s.xOut := rfl
@[simp] theorem advance_yOut : s.advance.yOut = s.yOut := rfl
@[simp] theorem advance_triple : s.advance.triple = s.triple := rfl
@[simp] theorem advance_initDone : s.advance.initDone = s.initDone := rfl
@[simp] theorem advance_fault : s.advance.fault = s.fault := rfl
@[simp] theorem advance_periphOpen : s.advance.periphOpen = s.periphOpen := rfl
@[simp] theorem advance_seq : s.advance.seq = s.seq.next := rfl
@[simp] theorem advance_cs : s.advance.cs = s.cs := rfl
@[simp] theorem advance_sck : s.advance.sck = s.sck := rfl
@[simp] theorem advance_mosi : s.advance.mosi = s.mosi := rfl
@[simp] theorem advance_pcfg : s.advance.pcfg = s.pcfg := rfl
@[simp] theorem advance_trace : s.advance.trace = s.trace := rfl

/-! #### raise -/

@[simp] theorem raise_params (c : FaultCode) (w : Word) : (s.raise c w).params = s.params := rfl
@[simp] theorem raise_requests (c : FaultCode) (w : Word) : (s.raise c w).requests = s.requests := rfl
@[simp] theorem raise_resetLine (c : FaultCode) (w : Word) : (s.raise c w).resetLine = s.resetLine := rfl
@[simp] theorem raise_env (c : FaultCode) (w : Word) : (s.raise c w).env = s.env := rfl
@[simp] theorem raise_res (c : FaultCode) (w : Word) : (s.raise c w).res = s.res := rfl
@[simp] theorem raise_xOut (c : FaultCode) (w : Word) : (s.raise c w).xOut = s.xOut := rfl
@[simp] theorem raise_yOut (c : FaultCode) (w : Word) : (s.raise c w).yOut = s.yOut := rfl
@[simp] theorem raise_triple (c : FaultCode) (w : Word) : (s.raise c w).triple = s.triple := rfl
@[simp] theorem raise_initDone (c : FaultCode) (w : Word) : (s.raise c w).initDone = s.initDone := rfl
@[simp] theorem raise_fault (c : FaultCode) (w : Word) : (s.raise c w).fault = some ⟨c, w⟩ := rfl
@[simp] theorem raise_periphOpen (c : FaultCode) (w : Word) : (s.raise c w).periphOpen = s.periphOpen := rfl
@[simp] theorem raise_seq (c : FaultCode) (w : Word) : (s.raise c w).seq = s.seq := rfl
@[simp] theorem raise_cs (c : FaultCode) (w : Word) : (s.raise c w).cs = s.cs := rfl
@[simp] theorem raise_sck (c : FaultCode) (w : Word) : (s.raise c w).sck = s.sck := rfl
@[simp] theorem raise_mosi (c : FaultCode) (w : Word) : (s.raise c w).mosi = s.mosi := rfl
@[simp] theorem raise_pcfg (c : FaultCode) (w : Word) : (s.raise c w).pcfg = s.pcfg := rfl
@[simp] theorem raise_trace (c : FaultCode) (w : Word) : (s.raise c w).trace = s.trace := rfl

/-! #### setRequests -/

@[simp] theorem setRequests_params (rest : List Word) : (s.setRequests rest).params = s.params := rfl
@[simp] theorem setRequests_requests (rest : List Word) : (s.setRequests rest).requests = rest := rfl
@[simp] theorem setRequests_resetLine (rest : List Word) : (s.setRequests rest).resetLine = s.resetLine := rfl
@[simp] theorem setRequests_env (rest : List Word) : (s.setRequests rest).env = s.env := rfl
@[simp] theorem setRequests_res (rest : List Word) : (s.setRequests rest).res = s.res := rfl
@[simp] theorem setRequests_xOut (rest : List Word) : (s.setRequests rest).xOut = s.xOut := rfl
@[simp] theorem setRequests_yOut (rest : List Word) : (s.setRequests rest).yOut = s.yOut := rfl
@[simp] theorem setRequests_triple (rest : List Word) : (s.setRequests rest).triple = s.triple := rfl
@[simp] theorem setRequests_initDone (rest : List Word) : (s.setRequests rest).initDone = s.initDone := rfl
@[simp] theorem setRequests_fault (rest : List Word) : (s.setRequests rest).fault = s.fault := rfl
@[simp] theorem setRequests_periphOpen (rest : List Word) : (s.setRequests rest).periphOpen = s.periphOpen := rfl
@[simp] theorem setRequests_seq (rest : List Word) : (s.setRequests rest).seq = s.seq := rfl
@[simp] theorem setRequests_cs (rest : List Word) : (s.setRequests rest).cs = s.cs := rfl
@[simp] theorem setRequests_sck (rest : List Word) : (s.setRequests rest).sck = s.sck := rfl
@[simp] theorem setRequests_mosi (rest : List Word) : (s.setRequests rest).mosi = s.mosi := rfl
@[simp] theorem setRequests_pcfg (rest : List Word) : (s.setRequests rest).pcfg = s.pcfg := rfl
@[simp] theorem setRequests_trace (rest : List Word) : (s.setRequests rest).trace = s.trace := rfl

/-! #### cfgOut -/

@[simp] theorem cfgOut_params (pin : Nat) : (s.cfgOut pin).params = s.params := rfl
@[simp] theorem cfgOut_requests (pin : Nat) : (s.cfgOut pin).requests = s.requests := rfl
@[simp] theorem cfgOut_resetLine (pin : Nat) : (s.cfgOut pin).resetLine = s.resetLine := rfl
@[simp] theorem cfgOut_env (pin : Nat) : (s.cfgOut pin).env = s.env := rfl
@[simp] theorem cfgOut_res (pin : Nat) : (s.cfgOut pin).res = s.res := rfl
@[simp] theorem cfgOut_xOut (pin : Nat) : (s.cfgOut pin).xOut = s.xOut := rfl
@[simp] theorem cfgOut_yOut (pin : Nat) : (s.cfgOut pin).yOut = s.yOut := rfl
@[simp] theorem cfgOut_triple (pin : Nat) : (s.cfgOut pin).triple = s.triple := rfl
@[simp] theorem cfgOut_initDone (pin : Nat) : (s.cfgOut pin).initDone = s.initDone := rfl
@[simp] theorem cfgOut_fault (pin : Nat) : (s.cfgOut pin).fault = s.fault := rfl
@[simp] theorem cfgOut_periphOpen (pin : Nat) : (s.cfgOut pin).periphOpen = s.periphOpen := rfl
@[simp] theorem cfgOut_seq (pin : Nat) : (s.cfgOut pin).seq = s.seq := rfl
@[simp] theorem cfgOut_cs (pin : Nat) : (s.cfgOut pin).cs = s.cs := rfl
@[simp] theorem cfgOut_sck (pin : Nat) : (s.cfgOut pin).sck = s.sck := rfl
@[simp] theorem cfgOut_mosi (pin : Nat) : (s.cfgOut pin).mosi = s.mosi := rfl
@[simp] theorem cfgOut_pcfg (pin : Nat) : (s.cfgOut pin).pcfg = s.pcfg := rfl
@[simp] theorem cfgOut_trace (pin : Nat) : (s.cfgOut pin).trace = s.trace := rfl

/-! #### cfgIn -/

@[simp] theorem cfgIn_params (pin : Nat) : (s.cfgIn pin).params = s.params := rfl
@[simp] theorem cfgIn_requests (pin : Nat) : (s.cfgIn pin).requests = s.requests := rfl
@[simp] theorem cfgIn_resetLine (pin : Nat) : (s.cfgIn pin).resetLine = s.resetLine := rfl
@[simp] theorem cfgIn_env (pin : Nat) : (s.cfgIn pin).env = s.env := rfl
@[simp] theorem cfgIn_res (pin : Nat) : (s.cfgIn pin).res = s.res := rfl
@[simp] theorem cfgIn_xOut (pin : Nat) : (s.cfgIn pin).xOut = s.xOut := rfl
@[simp] theorem cfgIn_yOut (pin : Nat) : (s.cfgIn pin).yOut = s.yOut := rfl
@[simp] theorem cfgIn_triple (pin : Nat) : (s.cfgIn pin).triple = s.triple := rfl
@[simp] theorem cfgIn_initDone (pin : Nat) : (s.cfgIn pin).initDone = s.initDone := rfl
@[simp] theorem cfgIn_fault (pin : Nat) : (s.cfgIn pin).fault = s.fault := rfl
@[simp] theorem cfgIn_periphOpen (pin : Nat) : (s.cfgIn pin).periphOpen = s.periphOpen := rfl
@[simp] theorem cfgIn_seq (pin : Nat) : (s.cfgIn pin).seq = s.seq := rfl
@[simp] theorem cfgIn_cs (pin : Nat) : (s.cfgIn pin).cs = s.cs := rfl
@[simp] theorem cfgIn_sck (pin : Nat) : (s.cfgIn pin).sck = s.sck := rfl
@[simp] theorem cfgIn_mosi (pin : Nat) : (s.cfgIn pin).mosi = s.mosi := rfl
@[simp] theorem cfgIn_pcfg (pin : Nat) : (s.cfgIn pin).pcfg = s.pcfg := rfl
@[simp] theorem cfgIn_trace (pin : Nat) : (s.cfgIn pin).trace = s.trace := rfl

/-! #### pConfig, pOpen, pClose -/

@[simp] theorem pConfig_eq (peripheral : Nat) (c : PeriphConfig) : s.pConfig peripheral c = s := rfl
@[simp] theorem pOpen_eq (peripheral : Nat) : s.pOpen peripheral = s := rfl
@[simp] theorem pClose_eq (peripheral : Nat) : s.pClose peripheral = s := rfl

/-! #### applyReset -/

@[simp] theorem applyReset_params : s.applyReset.params = s.params := rfl
@[simp] theorem applyReset_requests : s.applyReset.requests = s.requests := rfl
@[simp] theorem applyReset_resetLine : s.applyReset.resetLine = false := rfl
@[simp] theorem applyReset_env : s.applyReset.env = s.env := rfl
@[simp] theorem applyReset_res : s.applyReset.res = 0 := rfl
@[simp] theorem applyReset_xOut : s.applyReset.xOut = 0 := rfl
@[simp] theorem applyReset_yOut : s.applyReset.yOut = 0 := rfl
@[simp] theorem applyReset_triple : s.applyReset.triple = ⟨0, 0, 0⟩ := rfl
@[simp] theorem applyReset_initDone : s.applyReset.initDone = false := rfl
@[simp] theorem applyReset_fault : s.applyReset.fault = none := rfl
@[simp] theorem applyReset_periphOpen : s.applyReset.periphOpen = false := rfl
@[simp] theorem applyReset_seq : s.applyReset.seq = .idle := rfl
@[simp] theorem applyReset_cs : s.applyReset.cs = .undriven := rfl
@[simp] theorem applyReset_sck : s.applyReset.sck = .undriven := rfl
@[simp] theorem applyReset_mosi : s.applyReset.mosi = .undriven := rfl
@[simp] theorem applyReset_pcfg : s.applyReset.pcfg = none := rfl
@[simp] theorem applyReset_trace : s.applyReset.trace = [] := rfl

/-- Two states with equal elements are equal. -/
theorem ext_fields {s t : State} (h1 : s.params = t.params) (h2 : s.requests = t.requests)
    (h3 : s.resetLine = t.resetLine) (h4 : s.env = t.env) (h5 : s.res = t.res) (h6 : s.xOut = t.xOut)
    (h7 : s.yOut = t.yOut) (h8 : s.triple = t.triple) (h9 : s.initDone = t.initDone) (h10 : s.fault = t.fault)
    (h11 : s.periphOpen = t.periphOpen) (h12 : s.seq = t.seq) (h13 : s.cs = t.cs) (h14 : s.sck = t.sck)
    (h15 : s.mosi = t.mosi) (h16 : s.pcfg = t.pcfg) (h17 : s.trace = t.trace) : s = t := by
  cases s; cases t; simp_all

end Sys2Proof.Machine.State
end

