-- ==== Sys2Proof/Laws/Ops.lean ====
section
/-! SUPPORT. What the shared operations of Machine/Ops.lean can do: the environment's draws, micro-operations that may
hang, and the checks before a body. -/

namespace Sys2Proof.Machine

/-! ### Sources -/

namespace Source

variable {α : Type} (src : Source α)

@[simp] theorem after_zero : src.after 0 = src := by
  simp [Source.after]

@[simp] theorem after_after (m n : Nat) : (src.after m).after n = src.after (m + n) := by
  simp [Source.after, List.drop_drop, Nat.add_assoc]

@[simp] theorem peek_after (free : Nat → α) (n k : Nat) : (src.after n).peek free k = src.peek free (n + k) := by
  simp [Source.peek, Source.after, Nat.add_assoc]

theorem peek_pending (free : Nat → α) {k : Nat} {a : α} (h : src.pending[k]? = some a) : src.peek free k = a := by
  simp [Source.peek, h]

end Source

/-! ### Draws -/

namespace State

variable (s : State)

@[simp] theorem afterMiso_zero : s.afterMiso 0 = s := by simp [afterMiso]
@[simp] theorem afterExchange_zero : s.afterExchange 0 = s := by simp [afterExchange]
@[simp] theorem afterMiso_afterMiso (m n : Nat) : (s.afterMiso m).afterMiso n = s.afterMiso (m + n) := by
  simp [afterMiso]
@[simp] theorem afterExchange_afterExchange (m n : Nat) :
    (s.afterExchange m).afterExchange n = s.afterExchange (m + n) := by
  simp [afterExchange]

/-- What the bus receives depends on the mode and the environment alone. -/
theorem rxByte_congr {s t : State} (hp : s.params = t.params) (he : s.env = t.env) (k : Nat) :
    s.rxByte k = t.rxByte k := by
  simp [rxByte, misoAt, exchangeAt, hp, he]

theorem receives_congr {s t : State} (hp : s.params = t.params) (he : s.env = t.env) (n : Nat) (r : Nat → Byte) :
    s.Receives n r ↔ t.Receives n r := by
  simp [Receives, rxByte_congr hp he]

@[simp] theorem afterXfers_zero : s.afterXfers 0 = s := by
  unfold afterXfers; split <;> simp

theorem afterXfers_add (m n : Nat) : (s.afterXfers m).afterXfers n = s.afterXfers (m + n) := by
  cases h : s.params.mode <;> simp [afterXfers, h, Nat.mul_add]

theorem afterXfers_env_congr {s t : State} (hp : s.params = t.params) (he : s.env = t.env) (n : Nat) :
    (s.afterXfers n).env = (t.afterXfers n).env := by
  cases h : t.params.mode <;> simp [afterXfers, h, hp, he]

/-- The exchanges of a state are numbered on from the draws already made. -/
theorem rxByte_afterXfers (n k : Nat) : (s.afterXfers n).rxByte k = s.rxByte (n + k) := by
  cases h : s.params.mode
  · simp [afterXfers, rxByte, misoAt, h, byteOfSamples, Nat.mul_add, Nat.add_assoc]
  · simp [afterXfers, rxByte, exchangeAt, h]

/-! Drawing from the bus changes nothing but the environment. -/

@[simp] theorem afterXfers_params (n : Nat) : (s.afterXfers n).params = s.params := by unfold afterXfers; split <;> rfl
@[simp] theorem afterXfers_requests (n : Nat) : (s.afterXfers n).requests = s.requests := by unfold afterXfers; split <;> rfl
@[simp] theorem afterXfers_resetLine (n : Nat) : (s.afterXfers n).resetLine = s.resetLine := by unfold afterXfers; split <;> rfl
@[simp] theorem afterXfers_res (n : Nat) : (s.afterXfers n).res = s.res := by unfold afterXfers; split <;> rfl
@[simp] theorem afterXfers_xOut (n : Nat) : (s.afterXfers n).xOut = s.xOut := by unfold afterXfers; split <;> rfl
@[simp] theorem afterXfers_yOut (n : Nat) : (s.afterXfers n).yOut = s.yOut := by unfold afterXfers; split <;> rfl
@[simp] theorem afterXfers_triple (n : Nat) : (s.afterXfers n).triple = s.triple := by unfold afterXfers; split <;> rfl
@[simp] theorem afterXfers_initDone (n : Nat) : (s.afterXfers n).initDone = s.initDone := by unfold afterXfers; split <;> rfl
@[simp] theorem afterXfers_fault (n : Nat) : (s.afterXfers n).fault = s.fault := by unfold afterXfers; split <;> rfl
@[simp] theorem afterXfers_periphOpen (n : Nat) : (s.afterXfers n).periphOpen = s.periphOpen := by unfold afterXfers; split <;> rfl
@[simp] theorem afterXfers_seq (n : Nat) : (s.afterXfers n).seq = s.seq := by unfold afterXfers; split <;> rfl
@[simp] theorem afterXfers_cs (n : Nat) : (s.afterXfers n).cs = s.cs := by unfold afterXfers; split <;> rfl
@[simp] theorem afterXfers_sck (n : Nat) : (s.afterXfers n).sck = s.sck := by unfold afterXfers; split <;> rfl
@[simp] theorem afterXfers_mosi (n : Nat) : (s.afterXfers n).mosi = s.mosi := by unfold afterXfers; split <;> rfl
@[simp] theorem afterXfers_pcfg (n : Nat) : (s.afterXfers n).pcfg = s.pcfg := by unfold afterXfers; split <;> rfl
@[simp] theorem afterXfers_trace (n : Nat) : (s.afterXfers n).trace = s.trace := by unfold afterXfers; split <;> rfl

/-- Drawing from the bus changes nothing but the environment. -/
theorem afterXfers_eq (n : Nat) : s.afterXfers n = { s with env := (s.afterXfers n).env } := by
  unfold afterXfers; split <;> rfl

/-- In SOFT mode every exchange returns (R79). -/
theorem receives_soft (h : s.params.mode = .soft) (n : Nat) : ∃ r, s.Receives n r :=
  ⟨fun k => byteOfSamples fun i => s.misoAt (8 * k + i), fun k _ => by simp [rxByte, h]⟩

theorem Receives.mono {s : State} {m n : Nat} {r : Nat → Byte} (h : s.Receives n r) (hmn : m ≤ n) : s.Receives m r :=
  fun k hk => h k (by omega)

/-- Either the first n exchanges return, or one of them is the first that does not. -/
theorem receives_or_hangs (n : Nat) :
    (∃ r, s.Receives n r) ∨ ∃ m r, m < n ∧ s.Receives m r ∧ s.rxByte m = none := by
  induction n with
  | zero => exact .inl ⟨fun _ => 0, fun k hk => absurd hk (by omega)⟩
  | succ n ih =>
    obtain ⟨r, hr⟩ | ⟨m, r, hm, hr, hn⟩ := ih
    · cases hx : s.rxByte n with
      | none => exact .inr ⟨n, r, by omega, hr, hx⟩
      | some b =>
        refine .inl ⟨fun k => if k = n then b else r k, fun k hk => ?_⟩
        by_cases hkn : k = n
        · simp [hkn, hx]
        · simp [hkn, hr k (by omega)]
    · exact .inr ⟨m, r, by omega, hr, hn⟩

/-! ### Blocked -/

theorem blocked_eq_none_iff : s.blocked = none ↔ s.Ready := by
  unfold blocked Ready
  by_cases h : s.seq = .idle <;> by_cases hf : s.fault = none <;> simp [h, hf]

theorem Ready.blocked {s : State} (h : s.Ready) : s.blocked = none := s.blocked_eq_none_iff.2 h

theorem Stuck.blocked {s : State} (h : s.Stuck) : s.blocked = some .stuck := by
  simp [State.blocked, show s.seq ≠ .idle from h]

theorem blocked_faulted (hs : s.seq = .idle) (h : s.Faulted) : s.blocked = some .quiescent := by
  simp [State.blocked, hs, show s.fault ≠ none from h]

@[simp] theorem initCheck_done (h : s.initDone = true) {i : Instr} (hi : i ≠ .init) : s.initCheck i = none := by
  cases i <;> simp_all [initCheck]

@[simp] theorem initCheck_init (h : s.initDone = false) : s.initCheck .init = none := by
  simp [initCheck, h]

theorem initCheck_notInit (h : s.initDone = false) {i : Instr} (hi : i ≠ .init) : s.initCheck i = some .notInit := by
  cases i <;> simp_all [initCheck]

theorem initCheck_reinit (h : s.initDone = true) : s.initCheck .init = some .reinit := by
  simp [initCheck, h]

end State

/-! ### Micro-operations -/

@[simp] theorem Micro.bind_done {α β : Type} (a : α) (s : State) (f : α → State → Micro β) :
    (Micro.done a s).bind f = f a s := rfl

@[simp] theorem Micro.bind_hung {α β : Type} (s : State) (f : α → State → Micro β) :
    (Micro.hung s : Micro α).bind f = .hung s := rfl

@[simp] theorem Micro.settle_done (v : Word) (s : State) : (Micro.done v s).settle = s.complete v := rfl

@[simp] theorem Micro.settle_hung (s : State) : (Micro.hung s).settle = s := rfl

/-- The state a micro-operation leaves, whichever way it ended. -/
def Micro.state {α : Type} : Micro α → State
  | .done _ s => s
  | .hung s => s

/-- What `bind` can do: the first part hung, or it returned and the second part ran. -/
theorem Micro.bind_cases {α β : Type} (m : Micro α) (f : α → State → Micro β) :
    (∃ s, m = .hung s ∧ m.bind f = .hung s) ∨ ∃ a s, m = .done a s ∧ m.bind f = f a s := by
  cases m with
  | done a s => exact .inr ⟨a, s, rfl, rfl⟩
  | hung s => exact .inl ⟨s, rfl, rfl⟩

/-! ### Performing a request -/

/-- A ready block whose checks pass runs the body (R82). -/
theorem perform_body {i : Instr} {body : State → Micro Word} {s : State} (hr : s.Ready) (hc : s.initCheck i = none) :
    perform i body s = .next (body s).settle := by
  simp [perform, hr.blocked, hc]

/-- A ready block whose check fails takes the fault (R113, R114). -/
theorem perform_raise {i : Instr} {body : State → Micro Word} {s : State} {c : FaultCode} (hr : s.Ready)
    (hc : s.initCheck i = some c) : perform i body s = .next (s.raise c (encode i)) := by
  simp [perform, hr.blocked, hc]

/-- A blocked block takes no step (R113 check 1, R118). -/
theorem perform_blocked {i : Instr} {body : State → Micro Word} {s : State} {r : Fault} (h : s.blocked = some r) :
    perform i body s = .fault r := by
  simp [perform, h]

/-- Everything a decoded request can do when it answers a next state. -/
theorem perform_cases {i : Instr} {body : State → Micro Word} {s t : State} (h : perform i body s = .next t) :
    s.Ready ∧
      ((∃ c, s.initCheck i = some c ∧ t = s.raise c (encode i)) ∨
        (s.initCheck i = none ∧ t = (body s).settle)) := by
  unfold perform at h
  cases hb : s.blocked with
  | some r => simp [hb] at h
  | none =>
    refine ⟨s.blocked_eq_none_iff.1 hb, ?_⟩
    cases hc : s.initCheck i with
    | some c => simp [hb, hc] at h; exact .inl ⟨c, rfl, h.symm⟩
    | none => simp [hb, hc] at h; exact .inr ⟨rfl, h.symm⟩

end Sys2Proof.Machine
end

