-- ==== Sys2Proof/Laws/Transport.lean ====
section
/-! SUPPORT. What the Bus Transport can do: XFER in closed form, SELECT, RELEASE. -/

namespace Sys2Proof.Machine

@[simp] theorem lowByte_zext16 (b : Byte) : lowByte (zext16 b) = b := by
  simp [lowByte, zext16]

/-- The bits received one by one make the byte of the eight samples, the first being bit 7 (R37, R68). -/
theorem placeBit_all (f : Nat → Bool) :
    placeBit (placeBit (placeBit (placeBit (placeBit (placeBit (placeBit (placeBit 0 7 (f 0)) 6 (f 1)) 5 (f 2)) 4 (f 3))
      3 (f 4)) 2 (f 5)) 1 (f 6)) 0 (f 7) = byteOfSamples f := by
  simp only [placeBit, byteOfSamples]
  generalize f 0 = a0; generalize f 1 = a1; generalize f 2 = a2; generalize f 3 = a3
  generalize f 4 = a4; generalize f 5 = a5; generalize f 6 = a6; generalize f 7 = a7
  revert a0 a1 a2 a3 a4 a5 a6 a7
  decide

/-- Bit i of the byte of eight samples is the sample number 7 - i. -/
theorem byteOfSamples_bits (f : Nat → Bool) :
    (byteOfSamples f).getLsbD 7 = f 0 ∧ (byteOfSamples f).getLsbD 6 = f 1 ∧ (byteOfSamples f).getLsbD 5 = f 2 ∧
    (byteOfSamples f).getLsbD 4 = f 3 ∧ (byteOfSamples f).getLsbD 3 = f 4 ∧ (byteOfSamples f).getLsbD 2 = f 5 ∧
    (byteOfSamples f).getLsbD 1 = f 6 ∧ (byteOfSamples f).getLsbD 0 = f 7 := by
  simp only [byteOfSamples]
  generalize f 0 = a0; generalize f 1 = a1; generalize f 2 = a2; generalize f 3 = a3
  generalize f 4 = a4; generalize f 5 = a5; generalize f 6 = a6; generalize f 7 = a7
  revert a0 a1 a2 a3 a4 a5 a6 a7
  decide

/-- XFER in SOFT mode in closed form (R68, R70): it always returns. -/
theorem xferSoft_eq (tx : Word) (s : State) (h : s.params.mode = .soft) :
    ∃ r, s.rxByte 0 = some r ∧ xferSoft tx s = (zext16 r, s.xferred (lowByte tx) r) := by
  refine ⟨byteOfSamples fun i => s.misoAt i, by simp [State.rxByte, h], ?_⟩
  obtain ⟨h7, h6, h5, h4, h3, h2, h1, h0⟩ := byteOfSamples_bits fun i => s.misoAt i
  simp only [xferSoft, softBits, State.sampleMiso, State.misoAt, State.driveSck_env, State.driveMosi_env,
    State.emit_env, State.afterMiso_env, Source.peek_after, Source.after_after]
  have hp := placeBit_all fun i => s.env.miso.peek Config.freeMiso i
  simp only [State.misoAt] at hp h7 h6 h5 h4 h3 h2 h1 h0
  simp only [Nat.add_zero, Nat.reduceAdd, hp]
  refine Prod.ext rfl ?_
  apply State.ext_fields <;>
    simp [State.xferred, State.afterXfers, h, xferEvents, softFrame, bitFrame, Level.ofBit]
  exact ⟨h7.symm, h6.symm, h5.symm, h4.symm, h3.symm, h2.symm, h1.symm, h0.symm⟩

/-- XFER that returns, in either mode (R67). -/
theorem xfer_done {tx : Word} {s : State} {r : Byte} (h : s.rxByte 0 = some r) :
    xfer tx s = .done (zext16 r) (s.xferred (lowByte tx) r) := by
  cases hm : s.params.mode with
  | soft =>
    obtain ⟨r', hr', he⟩ := xferSoft_eq tx s hm
    obtain rfl : r' = r := by simpa [hr'] using h
    simp [xfer, hm, he]
  | hard =>
    have hx : s.exchangeAt 0 = some r := by simpa [State.rxByte, hm] using h
    simp [xfer, hm, xferHard, State.drawExchange, hx, State.emit, State.xferred, State.afterXfers, xferEvents]

/-- XFER that never returns: in HARD mode only, and nothing but the draw has happened (R78, R79). -/
theorem xfer_hung {tx : Word} {s : State} (h : s.rxByte 0 = none) :
    s.params.mode = .hard ∧ xfer tx s = .hung (s.afterXfers 1) := by
  cases hm : s.params.mode with
  | soft => simp [State.rxByte, hm] at h
  | hard =>
    have hx : s.exchangeAt 0 = none := by simpa [State.rxByte, hm] using h
    simp [xfer, hm, xferHard, State.drawExchange, hx, State.afterXfers]

/-- XFER in closed form (R67 to R69, R78). -/
theorem xfer_eq (tx : Word) (s : State) :
    xfer tx s = match s.rxByte 0 with
      | some r => .done (zext16 r) (s.xferred (lowByte tx) r)
      | none => .hung (s.afterXfers 1) := by
  cases h : s.rxByte 0 with
  | some r => exact xfer_done h
  | none => exact (xfer_hung h).2

/-! ### What an XFER leaves -/

namespace State

variable (b r : Byte) (s : State)

@[simp] theorem xferred_params : (s.xferred b r).params = s.params := afterXfers_params s 1
@[simp] theorem xferred_env : (s.xferred b r).env = (s.afterXfers 1).env := rfl
@[simp] theorem xferred_requests : (s.xferred b r).requests = s.requests := afterXfers_requests s 1
@[simp] theorem xferred_resetLine : (s.xferred b r).resetLine = s.resetLine := afterXfers_resetLine s 1
@[simp] theorem xferred_res : (s.xferred b r).res = s.res := afterXfers_res s 1
@[simp] theorem xferred_xOut : (s.xferred b r).xOut = s.xOut := afterXfers_xOut s 1
@[simp] theorem xferred_yOut : (s.xferred b r).yOut = s.yOut := afterXfers_yOut s 1
@[simp] theorem xferred_triple : (s.xferred b r).triple = s.triple := afterXfers_triple s 1
@[simp] theorem xferred_initDone : (s.xferred b r).initDone = s.initDone := afterXfers_initDone s 1
@[simp] theorem xferred_fault : (s.xferred b r).fault = s.fault := afterXfers_fault s 1
@[simp] theorem xferred_periphOpen : (s.xferred b r).periphOpen = s.periphOpen := afterXfers_periphOpen s 1
@[simp] theorem xferred_seq : (s.xferred b r).seq = s.seq := afterXfers_seq s 1
@[simp] theorem xferred_cs : (s.xferred b r).cs = s.cs := afterXfers_cs s 1
@[simp] theorem xferred_pcfg : (s.xferred b r).pcfg = s.pcfg := afterXfers_pcfg s 1
@[simp] theorem xferred_trace : (s.xferred b r).trace = s.trace ++ xferEvents s.params.mode b r := rfl

theorem rxByte_xferred (k : Nat) : (s.xferred b r).rxByte k = s.rxByte (1 + k) := by
  rw [← rxByte_afterXfers]
  exact rxByte_congr (by simp) rfl k

end State

/-! ### SELECT and RELEASE -/

theorem select_eq (s : State) :
    select s = { s with
      cs := .low
      periphOpen := match s.params.mode with | .soft => s.periphOpen | .hard => true
      trace := s.trace ++ selectEvents s.params.mode } := by
  cases h : s.params.mode <;>
    simp [select, h, State.driveCs, State.emit, State.setPeriphOpen, selectEvents, Level.ofBit]

theorem release_eq (s : State) :
    release s = { s with
      cs := .high
      periphOpen := match s.params.mode with | .soft => s.periphOpen | .hard => false
      trace := s.trace ++ releaseEvents s.params.mode } := by
  cases h : s.params.mode <;>
    simp [release, h, State.driveCs, State.emit, State.setPeriphOpen, releaseEvents, Level.ofBit]

end Sys2Proof.Machine
end

