-- ==== Sys2Proof/Laws/Sampler.lean ====
section
/-! SUPPORT. What the Sampler can do: the raw-data sequence in closed form, complete or hung, and the queries. -/

namespace Sys2Proof.Machine

/-! ### What does not touch the bus -/

namespace State

variable (s : State)

@[simp] theorem rxByte_advance (k : Nat) : s.advance.rxByte k = s.rxByte k := rfl
@[simp] theorem rxByte_setSample0 (v : Word) (k : Nat) : (s.setSample0 v).rxByte k = s.rxByte k := rfl
@[simp] theorem rxByte_setSample1 (v : Word) (k : Nat) : (s.setSample1 v).rxByte k = s.rxByte k := rfl
@[simp] theorem rxByte_select (k : Nat) : (select s).rxByte k = s.rxByte k := by
  rw [select_eq]; rfl
@[simp] theorem select_params : (select s).params = s.params := by
  rw [select_eq]

end State

/-! ### FETCH_seq -/

/-- A fetch whose nine exchanges return ends with the filtered value (R96, R97). -/
theorem fetchSeq_done {ch : Channel} {s : State} {r : Nat → Byte} (hs : s.seq = .idle) (h : s.Receives 9 r) :
    fetchSeq ch s = .done (fetchValue r) (s.fetched ch r) := by
  have h0 := h 0 (by omega); have h1 := h 1 (by omega); have h2 := h 2 (by omega)
  have h3 := h 3 (by omega); have h4 := h 4 (by omega); have h5 := h 5 (by omega)
  have h6 := h 6 (by omega); have h7 := h 7 (by omega); have h8 := h 8 (by omega)
  simp only [fetchSeq, readCycle, xfer_eq, State.rxByte_advance, State.rxByte_setSample0, State.rxByte_setSample1,
    State.rxByte_select, State.rxByte_xferred, Nat.reduceAdd, h0, h1, h2, h3, h4, h5, h6, h7, h8, Micro.bind_done,
    State.runFilter, lowByte_zext16]
  refine congrArg₂ Micro.done (by simp [release_eq, select_eq, samplesOf, fetchValue]) ?_
  cases hm : s.params.mode <;>
    (apply State.ext_fields <;>
      simp [release_eq, select_eq, samplesOf, State.fetched, State.xferred, State.afterXfers, hm, hs, Seq.next,
        fetchEvents, fetchXfers, List.range_succ, fetchSends])

/-- A fetch whose exchange number n is the first that never returns is stuck there (R78, R118). -/
theorem fetchSeq_hung {ch : Channel} {s : State} {r : Nat → Byte} {n : Nat} (hs : s.seq = .idle) (hn : n < 9)
    (h : s.Receives n r) (hx : s.rxByte n = none) :
    s.params.mode = .hard ∧ fetchSeq ch s = .hung (s.hungFetch ch r n) := by
  have hm : s.params.mode = .hard := by
    cases hm : s.params.mode with
    | soft => simp [State.rxByte, hm] at hx
    | hard => rfl
  refine ⟨hm, ?_⟩
  unfold State.Receives at h
  interval_cases n <;>
    simp only [fetchSeq, readCycle, xfer_eq, State.rxByte_advance, State.rxByte_setSample0, State.rxByte_setSample1,
      State.rxByte_select, State.rxByte_xferred, Nat.reduceAdd, hx, h, Nat.reduceLT, Micro.bind_done, Micro.bind_hung,
      Micro.hung.injEq] <;>
    (apply State.ext_fields <;>
      simp [select_eq, samplesOf, State.hungFetch, State.xferred, State.afterXfers, hm, hs, Seq.next, fetchXfers,
        List.range_succ, fetchSends]) <;>
    rfl

/-- Everything a fetch can do from a state between two operations (R96, R109). -/
theorem fetchSeq_cases (ch : Channel) {s : State} (hs : s.seq = .idle) :
    (∃ r, s.Receives 9 r ∧ fetchSeq ch s = .done (fetchValue r) (s.fetched ch r)) ∨
      ∃ n r, n < 9 ∧ s.Receives n r ∧ s.rxByte n = none ∧ s.params.mode = .hard ∧
        fetchSeq ch s = .hung (s.hungFetch ch r n) := by
  obtain ⟨r, hr⟩ | ⟨n, r, hn, hr, hx⟩ := s.receives_or_hangs 9
  · exact .inl ⟨r, hr, fetchSeq_done hs hr⟩
  · exact .inr ⟨n, r, hn, hr, hx, fetchSeq_hung hs hn hr hx⟩

/-! ### The queries and the set-up -/

/-- BUSYQ in closed form (R87). -/
theorem busyQuery_eq (s : State) : busyQuery s = (s.busyAnswer 0, s.queried) := by
  cases h : s.params.mode <;> simp [busyQuery, State.busyAnswer, State.queried, h, State.emit, State.drawBusy,
    State.afterBusy]

/-- PRESQ in closed form (R88). -/
theorem presenceQuery_eq (s : State) : presenceQuery s = (!s.presenceAt 0, s.presenceRead) := rfl

/-- INIT up to its priming fetch in closed form (R84). -/
theorem initSetup_eq (s : State) : initSetup s = s.setUp := by
  cases h : s.params.mode <;> cases hp : s.params.hasPresence <;>
    (apply State.ext_fields <;>
      simp [initSetup, configureSoft, configureHard, State.setUp, h, hp, Level.ofBit, initialPcfg])

namespace State

variable (s : State)

theorem busyAnswer_queried (k : Nat) : s.queried.busyAnswer k = s.busyAnswer (1 + k) := by
  cases h : s.params.mode <;> simp [queried, busyAnswer, busyAt, h]

theorem rxByte_queried (k : Nat) : s.queried.rxByte k = s.rxByte k := by
  cases h : s.params.mode <;> simp [queried, rxByte, misoAt, exchangeAt, h]

theorem rxByte_fetched (ch : Channel) (r : Nat → Byte) (k : Nat) : (s.fetched ch r).rxByte k = s.rxByte (9 + k) := by
  rw [← rxByte_afterXfers]
  exact rxByte_congr rfl rfl k

@[simp] theorem rxByte_presenceRead (k : Nat) : s.presenceRead.rxByte k = s.rxByte k := rfl
@[simp] theorem rxByte_setUp (k : Nat) : s.setUp.rxByte k = s.rxByte k := rfl

@[simp] theorem fetched_seq (ch : Channel) (r : Nat → Byte) : (s.fetched ch r).seq = s.seq := afterXfers_seq s 9
@[simp] theorem fetched_params (ch : Channel) (r : Nat → Byte) : (s.fetched ch r).params = s.params :=
  afterXfers_params s 9
@[simp] theorem fetched_fault (ch : Channel) (r : Nat → Byte) : (s.fetched ch r).fault = s.fault :=
  afterXfers_fault s 9
@[simp] theorem fetched_initDone (ch : Channel) (r : Nat → Byte) : (s.fetched ch r).initDone = s.initDone :=
  afterXfers_initDone s 9
@[simp] theorem fetched_res (ch : Channel) (r : Nat → Byte) : (s.fetched ch r).res = s.res := afterXfers_res s 9
@[simp] theorem fetched_xOut (ch : Channel) (r : Nat → Byte) : (s.fetched ch r).xOut = s.xOut := afterXfers_xOut s 9
@[simp] theorem fetched_yOut (ch : Channel) (r : Nat → Byte) : (s.fetched ch r).yOut = s.yOut := afterXfers_yOut s 9
@[simp] theorem fetched_pcfg (ch : Channel) (r : Nat → Byte) : (s.fetched ch r).pcfg = s.pcfg := afterXfers_pcfg s 9
@[simp] theorem fetched_requests (ch : Channel) (r : Nat → Byte) : (s.fetched ch r).requests = s.requests :=
  afterXfers_requests s 9
@[simp] theorem fetched_resetLine (ch : Channel) (r : Nat → Byte) : (s.fetched ch r).resetLine = s.resetLine :=
  afterXfers_resetLine s 9

@[simp] theorem hungFetch_params (ch : Channel) (r : Nat → Byte) (n : Nat) : (s.hungFetch ch r n).params = s.params :=
  afterXfers_params s _
@[simp] theorem hungFetch_fault (ch : Channel) (r : Nat → Byte) (n : Nat) : (s.hungFetch ch r n).fault = s.fault :=
  afterXfers_fault s _
@[simp] theorem hungFetch_initDone (ch : Channel) (r : Nat → Byte) (n : Nat) :
    (s.hungFetch ch r n).initDone = s.initDone := afterXfers_initDone s _
@[simp] theorem hungFetch_res (ch : Channel) (r : Nat → Byte) (n : Nat) : (s.hungFetch ch r n).res = s.res :=
  afterXfers_res s _
@[simp] theorem hungFetch_xOut (ch : Channel) (r : Nat → Byte) (n : Nat) : (s.hungFetch ch r n).xOut = s.xOut :=
  afterXfers_xOut s _
@[simp] theorem hungFetch_yOut (ch : Channel) (r : Nat → Byte) (n : Nat) : (s.hungFetch ch r n).yOut = s.yOut :=
  afterXfers_yOut s _
@[simp] theorem hungFetch_pcfg (ch : Channel) (r : Nat → Byte) (n : Nat) : (s.hungFetch ch r n).pcfg = s.pcfg :=
  afterXfers_pcfg s _
@[simp] theorem hungFetch_requests (ch : Channel) (r : Nat → Byte) (n : Nat) :
    (s.hungFetch ch r n).requests = s.requests := afterXfers_requests s _
@[simp] theorem hungFetch_resetLine (ch : Channel) (r : Nat → Byte) (n : Nat) :
    (s.hungFetch ch r n).resetLine = s.resetLine := afterXfers_resetLine s _

end State

end Sys2Proof.Machine
end

