-- ==== Sys2Proof/Laws/Filter.lean ====
section
/-! SUPPORT. Bounds of the samples and of the filter. -/

namespace Sys2Proof.Machine

/-- An assembled sample is the number 16 * hi + lo / 16 (R62). -/
theorem assembleSample_toNat (hi lo : Byte) : (assembleSample hi lo).toNat = 16 * hi.toNat + lo.toNat / 16 := by
  have h1 := hi.isLt
  have h2 := lo.isLt
  have e : hi.toNat * 16 % 65536 = 16 * hi.toNat := by omega
  have key : (16 * hi.toNat) ||| (lo.toNat / 16) = 16 * hi.toNat + lo.toNat / 16 := by
    have := Nat.two_pow_add_eq_or_of_lt (i := 4) (b := lo.toNat / 16) (by omega) hi.toNat
    simpa using this.symm
  simp only [assembleSample, zext16, BitVec.toNat_or, BitVec.toNat_shiftLeft, BitVec.toNat_ushiftRight,
    BitVec.toNat_setWidth, Nat.shiftLeft_eq, Nat.shiftRight_eq_div_pow]
  rw [Nat.mod_eq_of_lt (a := hi.toNat) (by omega), Nat.mod_eq_of_lt (a := lo.toNat) (by omega)]
  simp only [Nat.reducePow, e, key]

/-- A Raw Sample is 12 bits wide (R62). -/
theorem assembleSample_lt (hi lo : Byte) : (assembleSample hi lo).toNat < 4096 := by
  have := assembleSample_toNat hi lo
  omega

/-- All three samples are 12 bits wide (R19). -/
def Triple.Twelve (t : Triple) : Prop := t.s0.toNat < 4096 ∧ t.s1.toNat < 4096 ∧ t.s2.toNat < 4096

theorem samplesOf_twelve (r : Nat → Byte) : (samplesOf r).Twelve :=
  ⟨assembleSample_lt _ _, assembleSample_lt _ _, assembleSample_lt _ _⟩

/-- The replacement step only copies `S[2]` (R102). -/
theorem replaceOutlier_cases (t : Triple) :
    t.replaceOutlier = t ∨ t.replaceOutlier = { t with s0 := t.s2 } ∨ t.replaceOutlier = { t with s1 := t.s2 } := by
  unfold Triple.replaceOutlier
  simp only
  split
  · split <;> simp
  · simp

theorem Triple.Twelve.replaceOutlier {t : Triple} (h : t.Twelve) : t.replaceOutlier.Twelve := by
  obtain ⟨h0, h1, h2⟩ := h
  obtain e | e | e := replaceOutlier_cases t <;> rw [e]
  exacts [⟨h0, h1, h2⟩, ⟨h2, h1, h2⟩, ⟨h0, h2, h2⟩]

/-- The average on numbers, of samples of 12 bits (R103). -/
theorem average_toNat {t : Triple} (h : t.Twelve) : t.average.toNat = (t.s0.toNat + t.s1.toNat) / 2 := by
  obtain ⟨h0, h1, _⟩ := h
  simp only [Triple.average, BitVec.toNat_ofNat]
  omega

theorem Triple.Twelve.average_lt {t : Triple} (h : t.Twelve) : t.average.toNat < 4096 := by
  rw [average_toNat h]
  obtain ⟨h0, h1, _⟩ := h
  omega

/-- The filtered value of a fetch is 12 bits wide (R97). -/
theorem fetchValue_lt (r : Nat → Byte) : (fetchValue r).toNat < 4096 :=
  (samplesOf_twelve r).replaceOutlier.average_lt

theorem boolResult_lt (b : Bool) : (boolResult b).toNat < 4096 := by
  cases b <;> decide

theorem boolResult_eq (b : Bool) : boolResult b = if b then 1 else 0 := by
  cases b <;> decide

end Sys2Proof.Machine
end

