-- ==== Sys2Proof/Laws/Step.lean ====
section
/-! SUPPORT. What exec and step can do: one inversion lemma each. -/

namespace Sys2Proof.Machine

/-- The body of each operation, as `exec` performs it. -/
def bodyOf : Instr → State → Micro Word
  | .init => initBody
  | .isBusy => isBusyBody
  | .isTouched => isTouchedBody
  | .getRawPoint => getRawPointBody
  | .fetch ch => fetchSeq ch

/-- Every arm of `exec` performs its operation's body. -/
theorem exec_eq_perform (i : Instr) (s : State) : exec i s = perform i (bodyOf i) s := by
  cases i <;> rfl

/-- A blocked block takes no step, whatever the operation (R113 check 1, R118). -/
theorem exec_blocked {s : State} {r : Fault} (h : s.blocked = some r) (i : Instr) : exec i s = .fault r := by
  rw [exec_eq_perform, perform_blocked h]

/-- An operation of a ready block whose checks pass. -/
theorem exec_body {s : State} {i : Instr} (hs : s.Ready) (h : s.initCheck i = none) :
    exec i s = .next (bodyOf i s).settle := by
  rw [exec_eq_perform, perform_body hs h]

/-- An operation other than INIT, after INIT. -/
theorem exec_running {s : State} {i : Instr} (hs : s.Running) (hi : i ≠ .init) :
    exec i s = .next (bodyOf i s).settle :=
  exec_body hs.1 (s.initCheck_done hs.2 hi)

/-- An operation of a ready block whose check on INIT fails. -/
theorem exec_raise {s : State} {i : Instr} {c : FaultCode} (hs : s.Ready) (h : s.initCheck i = some c) :
    exec i s = .next (s.raise c (encode i)) := by
  rw [exec_eq_perform, perform_raise hs h]

/-- Everything an operation can do when it answers a next state. -/
theorem exec_cases {i : Instr} {s t : State} (h : exec i s = .next t) :
    s.Ready ∧
      ((∃ c, s.initCheck i = some c ∧ t = s.raise c (encode i)) ∨
        (s.initCheck i = none ∧ t = (bodyOf i s).settle)) := by
  rw [exec_eq_perform] at h
  exact perform_cases h

/-- What the check on INIT says when it fails (R112, R113). -/
theorem initCheck_some {s : State} {i : Instr} {c : FaultCode} (h : s.initCheck i = some c) :
    (c = .notInit ∧ s.initDone = false ∧ i ≠ .init) ∨ (c = .reinit ∧ s.initDone = true ∧ i = .init) := by
  cases hd : s.initDone <;> cases i <;> simp_all [State.initCheck]

/-- What the check on INIT says when it passes. -/
theorem initCheck_pass {s : State} {i : Instr} (h : s.initCheck i = none) :
    (i = .init ∧ s.initDone = false) ∨ (i ≠ .init ∧ s.initDone = true) := by
  cases hd : s.initDone <;> cases i <;> simp_all [State.initCheck]

/-- Taking a request changes nothing the checks read. -/
@[simp] theorem blocked_setRequests (rest : List Word) (s : State) : (s.setRequests rest).blocked = s.blocked := rfl

/-- With a request, the next one is taken. -/
theorem takeRequest_cons {s : State} {w : Word} {rest : List Word} (h : s.requests = w :: rest) :
    s.takeRequest = some (w, s.setRequests rest) := by
  simp [State.takeRequest, h]

/-- Without a request, none is taken. -/
theorem takeRequest_nil {s : State} (h : s.requests = []) : s.takeRequest = none := by
  simp [State.takeRequest, h]

/-- A ready block with a request takes it, decodes it and performs it. -/
theorem step_request {s : State} {w : Word} {rest : List Word} (hr : s.resetLine = false) (hs : s.Ready)
    (hq : s.requests = w :: rest) :
    step s = match decode w with
      | .ok i => exec i (s.setRequests rest)
      | .error _ => performIllegal w (s.setRequests rest) := by
  unfold step
  cases h : decode w <;> simp [hr, hs.blocked, takeRequest_cons hq, h]

/-- An ILLEGAL word given to a ready block. -/
theorem performIllegal_ready {s : State} (hs : s.Ready) (w : Word) : performIllegal w s = .next (s.raise .illegal w) := by
  unfold performIllegal
  rw [hs.blocked]

/-- Everything a step can do when it answers a next state: reset; nothing, with no request; the meaning of the request's
operation; or F_ILLEGAL. -/
theorem step_cases {s t : State} (h : step s = .next t) :
    (s.resetLine = true ∧ t = s.applyReset) ∨
    (s.resetLine = false ∧ s.Ready ∧ s.requests = [] ∧ t = s) ∨
    (∃ w rest i, s.resetLine = false ∧ s.Ready ∧ s.requests = w :: rest ∧ decode w = .ok i ∧
      exec i (s.setRequests rest) = .next t) ∨
    (∃ w rest reason, s.resetLine = false ∧ s.Ready ∧ s.requests = w :: rest ∧ decode w = .error reason ∧
      t = (s.setRequests rest).raise .illegal w) := by
  unfold step at h
  cases hr : s.resetLine with
  | true => simp [hr] at h; exact .inl ⟨rfl, h.symm⟩
  | false =>
    cases hb : s.blocked with
    | some r => simp [hr, hb] at h
    | none =>
      have hs := s.blocked_eq_none_iff.1 hb
      cases hq : s.requests with
      | nil => simp [hr, hb, takeRequest_nil hq] at h; exact .inr (.inl ⟨rfl, hs, rfl, h.symm⟩)
      | cons w rest =>
        cases hd : decode w with
        | ok i =>
          simp [hr, hb, takeRequest_cons hq, hd] at h
          exact .inr (.inr (.inl ⟨w, rest, i, rfl, hs, rfl, hd, h⟩))
        | error reason =>
          simp [hr, hb, takeRequest_cons hq, hd, performIllegal] at h
          exact .inr (.inr (.inr ⟨w, rest, reason, rfl, hs, rfl, hd, h.symm⟩))

end Sys2Proof.Machine
end

