-- ==== Sys2Proof/Laws/Bodies.lean ====
section
/-! SUPPORT. What the bodies of the operations can do, said once: an inversion lemma per body, and the relation `Ran` that
invariants are proved along. -/

namespace Sys2Proof.Machine

namespace State

variable (s : State)

@[simp] theorem queried_params : s.queried.params = s.params := rfl
@[simp] theorem queried_seq : s.queried.seq = s.seq := rfl
@[simp] theorem presenceRead_params : s.presenceRead.params = s.params := rfl
@[simp] theorem presenceRead_seq : s.presenceRead.seq = s.seq := rfl
@[simp] theorem setUp_params : s.setUp.params = s.params := rfl
@[simp] theorem setUp_seq : s.setUp.seq = s.seq := rfl
@[simp] theorem writePoint_rxByte (x y : Word) (k : Nat) : (s.writePoint x y).rxByte k = s.rxByte k := rfl

@[simp] theorem presenceAt_queried (k : Nat) : s.queried.presenceAt k = s.presenceAt k := by
  cases h : s.params.mode <;> simp [queried, presenceAt, h]

theorem receives_queried (n : Nat) (r : Nat → Byte) : s.queried.Receives n r ↔ s.Receives n r := by
  simp [Receives, rxByte_queried]

theorem receives_fetched {ch : Channel} {n m : Nat} {r z : Nat → Byte} (hm : n = 9 + m) (h : s.Receives n r) :
    (s.fetched ch z).Receives m fun k => r (9 + k) := by
  intro k hk
  rw [rxByte_fetched]
  exact h (9 + k) (by omega)

end State

/-! ### The touch query -/

/-- Everything the body of IS_TOUCHED can do (R89). -/
theorem touchQuery_cases {s : State} (hs : s.seq = .idle) :
    (s.busyAnswer 0 = true ∧ touchQuery s = .done false s.queried) ∨
    (s.busyAnswer 0 = false ∧ s.params.hasPresence = true ∧
      touchQuery s = .done (!s.presenceAt 0) s.queried.presenceRead) ∨
    (∃ r, s.busyAnswer 0 = false ∧ s.params.hasPresence = false ∧ s.Receives 9 r ∧
      touchQuery s = .done (pressureTouched s.params (fetchValue r)) (s.queried.fetched .z1 r)) ∨
    (∃ n r, s.busyAnswer 0 = false ∧ s.params.hasPresence = false ∧ n < 9 ∧ s.params.mode = .hard ∧
      touchQuery s = .hung (s.queried.hungFetch .z1 r n)) := by
  unfold touchQuery
  simp only [busyQuery_eq, presenceQuery_eq]
  cases hb : s.busyAnswer 0 with
  | true => simp
  | false =>
    cases hp : s.params.hasPresence with
    | true => simp [hp]
    | false =>
      obtain ⟨r, hr, he⟩ | ⟨n, r, hn, -, -, hm, he⟩ := fetchSeq_cases .z1 (s := s.queried) hs
      · refine .inr (.inr (.inl ⟨r, rfl, rfl, (s.receives_queried 9 r).1 hr, ?_⟩))
        simp [hp, he]
      · refine .inr (.inr (.inr ⟨n, r, rfl, rfl, hn, hm, ?_⟩))
        simp [hp, he]

/-- The body of IS_TOUCHED when the bus answers busy. -/
theorem touchQuery_busy {s : State} (h : s.busyAnswer 0 = true) : touchQuery s = .done false s.queried := by
  simp [touchQuery, busyQuery_eq, h]

/-- The body of IS_TOUCHED with a presence line. -/
theorem touchQuery_presence {s : State} (h : s.busyAnswer 0 = false) (hp : s.params.hasPresence = true) :
    touchQuery s = .done (!s.presenceAt 0) s.queried.presenceRead := by
  simp [touchQuery, busyQuery_eq, presenceQuery_eq, h, hp]

/-- The body of IS_TOUCHED without a presence line. -/
theorem touchQuery_pressure {s : State} {r : Nat → Byte} (hs : s.seq = .idle) (h : s.busyAnswer 0 = false)
    (hp : s.params.hasPresence = false) (hr : s.Receives 9 r) :
    touchQuery s = .done (pressureTouched s.params (fetchValue r)) (s.queried.fetched .z1 r) := by
  simp [touchQuery, busyQuery_eq, h, hp, fetchSeq_done (s := s.queried) hs ((s.receives_queried 9 r).2 hr)]

/-! ### The relation along which the bodies run -/

/-- `Ran s t`: a body that started between two operations at s has come to t, still between micro-operations: by busy
queries, presence reads, whole fetches and the writing of the point. -/
inductive Ran (s : State) : State → Prop where
  | start : Ran s s
  | query {t : State} (h : Ran s t) : Ran s t.queried
  | presence {t : State} (h : Ran s t) : Ran s t.presenceRead
  | fetch {t : State} (ch : Channel) (r : Nat → Byte) (h : Ran s t) : Ran s (t.fetched ch r)
  | point {t : State} (x y : Word) (hx : x.toNat < 4096) (hy : y.toNat < 4096) (h : Ran s t) : Ran s (t.writePoint x y)

theorem Ran.seq {s t : State} (h : Ran s t) : t.seq = s.seq := by
  induction h <;> simp_all

theorem Ran.params {s t : State} (h : Ran s t) : t.params = s.params := by
  induction h <;> simp_all

theorem Ran.fault {s t : State} (h : Ran s t) : t.fault = s.fault := by
  induction h <;> simp_all [State.queried, State.presenceRead]

theorem Ran.initDone {s t : State} (h : Ran s t) : t.initDone = s.initDone := by
  induction h <;> simp_all [State.queried, State.presenceRead]

theorem Ran.pcfg {s t : State} (h : Ran s t) : t.pcfg = s.pcfg := by
  induction h <;> simp_all [State.queried, State.presenceRead]

theorem Ran.res {s t : State} (h : Ran s t) : t.res = s.res := by
  induction h <;> simp_all [State.queried, State.presenceRead]

theorem Ran.requests {s t : State} (h : Ran s t) : t.requests = s.requests := by
  induction h <;> simp_all [State.queried, State.presenceRead]

theorem Ran.resetLine {s t : State} (h : Ran s t) : t.resetLine = s.resetLine := by
  induction h <;> simp_all [State.queried, State.presenceRead]

theorem Ran.trans {s t u : State} (h : Ran s t) (h' : Ran t u) : Ran s u := by
  induction h' with
  | start => exact h
  | query _ ih => exact ih.query
  | presence _ ih => exact ih.presence
  | fetch ch r _ ih => exact ih.fetch ch r
  | point x y hx hy _ ih => exact ih.point x y hx hy

/-- What a micro-operation started at s did: it ran on, and returned or is stuck in a fetch. -/
def Micro.RanFrom {α : Type} (s : State) (m : Micro α) : Prop :=
  (∃ a t, m = .done a t ∧ Ran s t) ∨
  ∃ u ch r n, m = .hung (u.hungFetch ch r n) ∧ Ran s u ∧ u.params.mode = .hard ∧ n < 9

theorem Micro.RanFrom.bind {α β : Type} {s : State} {m : Micro α} {f : α → State → Micro β} (h : m.RanFrom s)
    (hf : ∀ a t, m = .done a t → Ran s t → (f a t).RanFrom t) : (m.bind f).RanFrom s := by
  obtain ⟨a, t, rfl, ht⟩ | ⟨u, ch, r, n, rfl, hu, hm, hn⟩ := h
  · obtain ⟨b, v, hv, hr⟩ | ⟨u, ch, r, n, hv, hr, hm, hn⟩ := hf a t rfl ht
    · exact .inl ⟨b, v, hv, ht.trans hr⟩
    · exact .inr ⟨u, ch, r, n, hv, ht.trans hr, hm, hn⟩
  · exact .inr ⟨u, ch, r, n, rfl, hu, hm, hn⟩

theorem fetchSeq_ran (ch : Channel) {s : State} (hs : s.seq = .idle) : (fetchSeq ch s).RanFrom s := by
  obtain ⟨r, -, he⟩ | ⟨n, r, hn, -, -, hm, he⟩ := fetchSeq_cases ch hs
  · exact .inl ⟨_, _, he, Ran.start.fetch ch r⟩
  · exact .inr ⟨s, ch, r, n, he, .start, hm, hn⟩

theorem touchQuery_ran {s : State} (hs : s.seq = .idle) : (touchQuery s).RanFrom s := by
  obtain ⟨-, he⟩ | ⟨-, -, he⟩ | ⟨r, -, -, -, he⟩ | ⟨n, r, -, -, hn, hm, he⟩ := touchQuery_cases hs
  · exact .inl ⟨_, _, he, Ran.start.query⟩
  · exact .inl ⟨_, _, he, Ran.start.query.presence⟩
  · exact .inl ⟨_, _, he, Ran.start.query.fetch .z1 r⟩
  · exact .inr ⟨s.queried, .z1, r, n, he, Ran.start.query, hm, hn⟩

/-- A fetch that returns gives its filtered value. -/
theorem fetchSeq_value {ch : Channel} {s t : State} {v : Word} (hs : s.seq = .idle) (h : fetchSeq ch s = .done v t) :
    ∃ r, s.Receives 9 r ∧ v = fetchValue r ∧ t = s.fetched ch r := by
  obtain ⟨r, hr, he⟩ | ⟨n, r, -, -, -, -, he⟩ := fetchSeq_cases ch hs
  · rw [he] at h
    injection h with h1 h2
    exact ⟨r, hr, h1.symm, h2.symm⟩
  · rw [he] at h
    simp at h

theorem pointFetch_ran {s : State} (hs : s.seq = .idle) : (pointFetch s).RanFrom s := by
  refine (fetchSeq_ran .x hs).bind fun x t hx ht => ?_
  have hts : t.seq = .idle := ht.seq.trans hs
  refine (fetchSeq_ran .y hts).bind fun y u hy hu => ?_
  obtain ⟨r, -, rfl, -⟩ := fetchSeq_value hs hx
  obtain ⟨z, -, rfl, -⟩ := fetchSeq_value hts hy
  have hp : Ran u (u.writePoint (fetchValue r) (fetchValue z)) :=
    Ran.start.point _ _ (fetchValue_lt r) (fetchValue_lt z)
  simp only
  split
  · have h := touchQuery_ran (s := u.writePoint (fetchValue r) (fetchValue z)) (hu.seq.trans hts)
    obtain ⟨a, v, he, hv⟩ | ⟨v, ch, w, n, he, hv, hm, hn⟩ := h
    · exact .inl ⟨a, v, he, hp.trans hv⟩
    · exact .inr ⟨v, ch, w, n, he, hp.trans hv, hm, hn⟩
  · exact .inl ⟨_, _, rfl, hp⟩

theorem pointQuery_ran {s : State} (hs : s.seq = .idle) : (pointQuery s).RanFrom s := by
  unfold pointQuery
  simp only [busyQuery_eq]
  split
  · exact .inl ⟨_, _, rfl, Ran.start.query⟩
  · have h : ((touchQuery s.queried).bind fun touched s =>
        if touched then pointFetch s else .done false s).RanFrom s.queried := by
      refine (touchQuery_ran (s := s.queried) hs).bind fun touched t _ ht => ?_
      split
      · exact pointFetch_ran (ht.seq.trans hs)
      · exact .inl ⟨_, _, rfl, .start⟩
    obtain ⟨a, v, he, hv⟩ | ⟨v, ch, w, n, he, hv, hm, hn⟩ := h
    · exact .inl ⟨a, v, he, Ran.start.query.trans hv⟩
    · exact .inr ⟨v, ch, w, n, he, Ran.start.query.trans hv, hm, hn⟩

/-- Where the bus work of an operation starts: INIT's after its set-up. -/
def startOf : Instr → State → State
  | .init, s => s.setUp
  | .isBusy, s => s
  | .isTouched, s => s
  | .getRawPoint, s => s
  | .fetch _, s => s

@[simp] theorem startOf_seq (i : Instr) (s : State) : (startOf i s).seq = s.seq := by cases i <;> rfl
@[simp] theorem startOf_fault (i : Instr) (s : State) : (startOf i s).fault = s.fault := by cases i <;> rfl
@[simp] theorem startOf_params (i : Instr) (s : State) : (startOf i s).params = s.params := by cases i <;> rfl
@[simp] theorem startOf_res (i : Instr) (s : State) : (startOf i s).res = s.res := by cases i <;> rfl
@[simp] theorem startOf_requests (i : Instr) (s : State) : (startOf i s).requests = s.requests := by cases i <;> rfl
@[simp] theorem startOf_resetLine (i : Instr) (s : State) : (startOf i s).resetLine = s.resetLine := by cases i <;> rfl
@[simp] theorem startOf_xOut (i : Instr) (s : State) : (startOf i s).xOut = s.xOut := by cases i <;> rfl
@[simp] theorem startOf_yOut (i : Instr) (s : State) : (startOf i s).yOut = s.yOut := by cases i <;> rfl

/-- Only INIT has a set-up. -/
theorem startOf_eq_self {i : Instr} (h : i ≠ .init) (s : State) : startOf i s = s := by
  cases i <;> first | rfl | exact absurd rfl h

/-- The fetches of a touched point when all their exchanges return (R92). -/
theorem pointFetch_done {s : State} {r : Nat → Byte} (hs : s.seq = .idle) (hr : s.Receives 18 r) :
    pointFetch s =
      let t := ((s.fetched .x r).fetched .y fun k => r (9 + k)).writePoint (fetchValue r)
        (fetchValue fun k => r (9 + k))
      if s.params.pointPostcheck then touchQuery t else .done true t := by
  have h1 := fetchSeq_done (ch := .x) hs (hr.mono (by omega : 9 ≤ 18))
  have h2 := fetchSeq_done (ch := .y) (s := s.fetched .x r) (by simpa using hs) (s.receives_fetched rfl hr)
  simp [pointFetch, h1, h2]

/-- Every body runs along `Ran` from its start (R81). -/
theorem body_ran (i : Instr) {s : State} (hs : s.seq = .idle) : (bodyOf i s).RanFrom (startOf i s) := by
  cases i with
  | init =>
    show ((fetchSeq .x (initSetup s)).bind fun _ s => .done 0 s).RanFrom s.setUp
    rw [initSetup_eq]
    exact (fetchSeq_ran .x (s := s.setUp) hs).bind fun _ t _ _ => .inl ⟨0, t, rfl, .start⟩
  | isBusy =>
    exact .inl ⟨boolResult (s.busyAnswer 0), s.queried, by simp [bodyOf, isBusyBody, busyQuery_eq], Ran.start.query⟩
  | isTouched => exact (touchQuery_ran hs).bind fun _ t _ _ => .inl ⟨_, t, rfl, .start⟩
  | getRawPoint => exact (pointQuery_ran hs).bind fun _ t _ _ => .inl ⟨_, t, rfl, .start⟩
  | fetch ch => exact fetchSeq_ran ch hs

/-- The value an operation returns is 12 bits wide (R17). -/
theorem body_value_lt {i : Instr} {s t : State} {v : Word} (hs : s.seq = .idle) (h : bodyOf i s = .done v t) :
    v.toNat < 4096 := by
  cases i with
  | init =>
    obtain ⟨u, hu, he⟩ | ⟨x, u, hu, he⟩ := Micro.bind_cases (fetchSeq .x (initSetup s)) fun _ s => .done (0 : Word) s
    · rw [show bodyOf .init s = _ from he] at h; simp at h
    · rw [show bodyOf .init s = _ from he] at h
      injection h with h1 _
      rw [← h1]; decide
  | isBusy =>
    injection h with h1 _
    rw [← h1]; exact boolResult_lt _
  | isTouched =>
    obtain ⟨u, hu, he⟩ | ⟨x, u, hu, he⟩ := Micro.bind_cases (touchQuery s) fun b s => .done (boolResult b) s
    · rw [show bodyOf .isTouched s = _ from he] at h; simp at h
    · rw [show bodyOf .isTouched s = _ from he] at h
      injection h with h1 _
      rw [← h1]; exact boolResult_lt _
  | getRawPoint =>
    obtain ⟨u, hu, he⟩ | ⟨x, u, hu, he⟩ := Micro.bind_cases (pointQuery s) fun b s => .done (boolResult b) s
    · rw [show bodyOf .getRawPoint s = _ from he] at h; simp at h
    · rw [show bodyOf .getRawPoint s = _ from he] at h
      injection h with h1 _
      rw [← h1]; exact boolResult_lt _
  | fetch ch =>
    obtain ⟨r, -, rfl, -⟩ := fetchSeq_value hs h
    exact fetchValue_lt r

/-- Everything an operation whose checks pass can do: it completed after running along `Ran`, or it is stuck in a fetch of
HARD mode (R109). -/
theorem settle_cases (i : Instr) {s : State} (hs : s.seq = .idle) :
    (∃ v t, bodyOf i s = .done v t ∧ (bodyOf i s).settle = t.complete v ∧ Ran (startOf i s) t ∧ v.toNat < 4096) ∨
    ∃ u ch r n, bodyOf i s = .hung (u.hungFetch ch r n) ∧ (bodyOf i s).settle = u.hungFetch ch r n ∧
      Ran (startOf i s) u ∧ u.params.mode = .hard ∧ n < 9 := by
  obtain ⟨v, t, he, ht⟩ | ⟨u, ch, r, n, he, hu, hm, hn⟩ := body_ran i hs
  · exact .inl ⟨v, t, he, by simp [he], ht, body_value_lt hs he⟩
  · exact .inr ⟨u, ch, r, n, he, by simp [he], hu, hm, hn⟩

end Sys2Proof.Machine
end

