-- ==== Sys2Proof/Laws/Encoding.lean ====
section
/-! SUPPORT. The request word and its fields: the fields determine the word, and what a legal word's fields are. -/

namespace Sys2Proof

/-- A word is its four fields (R51). -/
@[simp] theorem toWord_ofWord (w : Word) : (Opw.ofWord w).toWord = w := by
  simp only [Opw.toWord, Opw.ofWord]
  apply BitVec.eq_of_getElem_eq
  intro i hi
  simp only [BitVec.getElem_append, BitVec.getElem_extractLsb']
  split
  · simp [BitVec.getElem_eq_testBit_toNat, BitVec.getLsbD]
  split
  · simp [BitVec.getElem_eq_testBit_toNat, BitVec.getLsbD, show 8 + (i - 8) = i by omega]
  split
  · simp [BitVec.getElem_eq_testBit_toNat, BitVec.getLsbD, show 10 + (i - 8 - 2) = i by omega]
  · simp [BitVec.getElem_eq_testBit_toNat, BitVec.getLsbD, show 12 + (i - 8 - 2 - 2) = i by omega]

/-- The fields of a word as numbers (R51). -/
theorem ofWord_toNat (w : Word) :
    (Opw.ofWord w).op.toNat = w.toNat / 4096 ∧ (Opw.ofWord w).rsv1.toNat = w.toNat / 1024 % 4 ∧
      (Opw.ofWord w).ch.toNat = w.toNat / 256 % 4 ∧ (Opw.ofWord w).rsv0.toNat = w.toNat % 256 := by
  have := w.isLt
  simp [Opw.ofWord, BitVec.extractLsb'_toNat, Nat.shiftRight_eq_div_pow]
  omega

/-- What fields that are not ILLEGAL are (R54). -/
theorem illegal_none_cases {f : Opw} (h : f.illegal = none) :
    f.op ≤ 4 ∧ f.rsv1 = 0 ∧ f.rsv0 = 0 ∧ (f.op = 4 ∨ f.ch = 0) := by
  unfold Opw.illegal at h
  split at h
  · simp at h
  split at h
  · simp at h
  split at h
  · simp at h
  split at h
  · simp at h
  rename_i h1 h2 h3 h4
  refine ⟨by simpa using h1, by simpa using h2, by simpa using h3, ?_⟩
  by_cases h5 : f.op = 4#4 <;> simp_all

/-- Legal fields are those of the operation they decode to (R52). -/
theorem instr_fields {f : Opw} (h : f.illegal = none) : f.instr.fields = f := by
  obtain ⟨h1, h2, h3, h4⟩ := illegal_none_cases h
  obtain ⟨op, r1, ch, r0⟩ := f
  simp only at h1 h2 h3 h4
  subst h2 h3
  revert op ch
  decide

/-- A word's fields are legal exactly when they are well formed. -/
theorem illegal_eq_none_iff (f : Opw) : f.illegal = none ↔ f.wf = true := by
  constructor
  · intro h
    obtain ⟨h1, h2, h3, h4⟩ := illegal_none_cases h
    have : f.op.toNat ≤ 4 := h1
    simp [Opw.wf, this, h2, h3]
    tauto
  · intro h
    simp [Opw.wf] at h
    obtain ⟨⟨⟨h1, h2⟩, h3⟩, h4⟩ := h
    have : ¬(4#4 < f.op) := by simpa [BitVec.lt_def] using h1
    simp [Opw.illegal, this, h2, h3]
    tauto

end Sys2Proof
end

