-- ==== Sys2Proof/Laws/Invariants.lean ====
section
/-! SUPPORT. What holds between the micro-operations of a body, for the proofs that a step keeps an invariant: the state
between fetches, how a reader of TRACE moves over the events of a fetch, and how many exchanges they hold. -/

namespace Sys2Proof.Machine

/-! ### What runs along `Ran` -/

theorem Ran.hardLines {s t : State} (h : Ran s t) (hm : s.params.mode = .hard) : t.sck = s.sck ∧ t.mosi = s.mosi := by
  induction h with
  | start => simp
  | query h ih => simpa [State.queried] using ih
  | presence h ih => simpa [State.presenceRead] using ih
  | fetch ch r h ih => have := h.params; simpa [State.fetched, this, hm] using ih
  | point x y hx hy h ih => simpa using ih

theorem Ran.softOpen {s t : State} (h : Ran s t) (hm : s.params.mode = .soft) : t.periphOpen = s.periphOpen := by
  induction h with
  | start => simp
  | query h ih => simpa [State.queried] using ih
  | presence h ih => simpa [State.presenceRead] using ih
  | fetch ch r h ih => have := h.params; simpa [State.fetched, this, hm] using ih
  | point x y hx hy h ih => simpa using ih

theorem Ran.trace {s t : State} (h : Ran s t) : ∃ new, t.trace = s.trace ++ new := by
  induction h with
  | start => exact ⟨[], by simp⟩
  | query h ih =>
    obtain ⟨n, e⟩ := ih
    exact ⟨n ++ [.busyq _], by simp only [State.queried, e, List.append_assoc]; rfl⟩
  | presence h ih =>
    obtain ⟨n, e⟩ := ih
    exact ⟨n ++ [.pres _], by simp only [State.presenceRead, e, List.append_assoc]; rfl⟩
  | fetch ch r h ih =>
    obtain ⟨n, e⟩ := ih
    exact ⟨n ++ _, by simp only [State.fetched, e, List.append_assoc]; rfl⟩
  | point x y hx hy h ih => simpa using ih

/-- What holds after INIT's set-up between two micro-operations: R34 with the widths of R17 to R19. -/
structure State.Between (s : State) : Prop where
  soft : s.params.mode = .soft → s.periphOpen = false ∧ s.pcfg = none
  hard : s.params.mode = .hard → s.sck = .undriven ∧ s.mosi = .undriven
  initDone : s.initDone = true
  lines : s.cs = .high ∧ s.periphOpen = false ∧ (s.params.mode = .soft → s.sck = .low)
  configured : s.params.mode = .hard → s.pcfg = some (initialPcfg s.params)
  idle : s.seq = .idle
  twelveBit : s.triple.Twelve ∧ s.xOut.toNat < 4096 ∧ s.yOut.toNat < 4096 ∧ s.res.toNat < 4096
  noFault : s.fault = none

namespace State.Between

variable {s : State}

theorem queried (h : s.Between) : s.queried.Between :=
  ⟨h.soft, h.hard, h.initDone, h.lines, h.configured, h.idle, h.twelveBit, h.noFault⟩

theorem presenceRead (h : s.Between) : s.presenceRead.Between :=
  ⟨h.soft, h.hard, h.initDone, h.lines, h.configured, h.idle, h.twelveBit, h.noFault⟩

theorem writePoint (h : s.Between) {x y : Word} (hx : x.toNat < 4096) (hy : y.toNat < 4096) :
    (s.writePoint x y).Between :=
  ⟨h.soft, h.hard, h.initDone, h.lines, h.configured, h.idle, ⟨h.twelveBit.1, hx, hy, h.twelveBit.2.2.2⟩, h.noFault⟩

theorem complete (h : s.Between) {v : Word} (hv : v.toNat < 4096) : (s.complete v).Between :=
  ⟨h.soft, h.hard, h.initDone, h.lines, h.configured, h.idle,
    ⟨h.twelveBit.1, h.twelveBit.2.1, h.twelveBit.2.2.1, hv⟩, h.noFault⟩

theorem fetched (h : s.Between) (ch : Channel) (r : Nat → Byte) : (s.fetched ch r).Between where
  soft hm := by
    simp at hm
    have := h.soft hm
    simp [State.fetched, hm, this]
  hard hm := by
    simp at hm
    have := h.hard hm
    simp [State.fetched, hm, this]
  initDone := by simp [h.initDone]
  lines := by
    refine ⟨rfl, ?_, fun hm => ?_⟩
    · simp only [State.fetched]
      split
      · exact h.lines.2.1
      · rfl
    · simp at hm
      simp [State.fetched, hm]
  configured hm := by
    simp at hm
    simp [h.configured hm]
  idle := by simp [h.idle]
  twelveBit := ⟨(samplesOf_twelve r).replaceOutlier, by simpa using h.twelveBit.2⟩
  noFault := by simp [h.noFault]

/-- It is kept along a body. -/
theorem ran {t : State} (h : s.Between) (hr : Ran s t) : t.Between := by
  induction hr with
  | start => exact h
  | query _ ih => exact ih.queried
  | presence _ ih => exact ih.presenceRead
  | fetch ch r _ ih => exact ih.fetched ch r
  | point x y hx hy _ ih => exact ih.writePoint hx hy

/-- A fetch that hangs leaves a state of the invariant. -/
theorem hungFetch (h : s.Between) (hm : s.params.mode = .hard) (ch : Channel) (r : Nat → Byte) (n : Nat) :
    (s.hungFetch ch r n).Inv where
  soft e := by simp [hm] at e
  hard _ := by simpa [State.hungFetch] using h.hard hm
  beforeInit e := by simp [h.initDone] at e
  afterInit _ e := by simp [State.hungFetch] at e
  configured _ _ := by simpa using h.configured hm
  stuck _ := ⟨by simpa using hm, by simp [h.initDone], rfl, rfl, by simp [h.noFault], _, _, rfl⟩
  twelveBit := by
    obtain ⟨⟨a, b, c⟩, d⟩ := h.twelveBit
    obtain ⟨a', b', c'⟩ := samplesOf_twelve r
    refine ⟨?_, ?_, c, by simpa using d⟩ <;> simp only [State.hungFetch] <;> split <;> assumption
  cause f e := by simp [h.noFault] at e

end State.Between

/-- Every element that INIT's set-up leaves is as between two micro-operations. -/
theorem State.Inv.setUp {s : State} (h : s.Inv) (hs : s.Ready) (hd : s.initDone = false) : s.setUp.Between := by
  obtain ⟨a, b, c, d, e, f, g⟩ := h.beforeInit hd
  obtain ⟨t0, t1, t2, t3⟩ := h.twelveBit
  constructor
  · intro hm
    simp at hm
    simp [State.setUp, hm, d, e]
  · intro hm
    simp at hm
    simp [State.setUp, hm, b, c]
  · rfl
  · refine ⟨rfl, d, fun hm => ?_⟩
    simp at hm
    simp [State.setUp, hm]
  · intro hm
    simp at hm
    simp [State.setUp, hm, initialPcfg]
  · exact hs.1
  · exact ⟨⟨t0, t1, t2⟩, t3⟩
  · exact hs.2

/-- A ready block after INIT that meets the invariant is between two micro-operations. -/
theorem State.Inv.between {s : State} (h : s.Inv) (hs : s.Running) : s.Between := by
  obtain ⟨a, b, c⟩ := h.afterInit hs.2 hs.1.1
  obtain ⟨t0, t1, t2, t3⟩ := h.twelveBit
  exact ⟨fun e => ⟨(h.soft e).1, (h.soft e).2.1⟩, h.hard, hs.2, ⟨a, b, fun e => (c e).1⟩, h.configured hs.2,
    hs.1.1, ⟨⟨t0, t1, t2⟩, t3⟩, hs.1.2⟩

/-- MOSI rests at bit 0 of `DUMMY` along a body, where it did before it or a fetch was made. -/
theorem Ran.mosi {s t : State} (h : Ran s t)
    (hs : s.params.mode = .soft → s.mosi = Level.ofBit (s.params.dummy.getLsbD 0)) :
    t.params.mode = .soft → t.mosi = Level.ofBit (t.params.dummy.getLsbD 0) := by
  induction h with
  | start => exact hs
  | query _ ih => exact ih
  | presence _ ih => exact ih
  | fetch ch r h _ =>
    intro hm
    simp at hm
    simp [State.fetched, hm]
  | point x y hx hy _ ih => exact ih

/-! ### Reading the events of a fetch -/

theorem read_append {m : Mode} {x y : Scope} {l : List Event} (h : l.foldlM (Scope.read m) x = some y)
    (l' : List Event) : (l ++ l').foldlM (Scope.read m) x = l'.foldlM (Scope.read m) y := by
  simp [List.foldlM_append, h]

theorem fetchXfers_succ (m : Mode) (cmd dummy : Byte) (r : Nat → Byte) (n : Nat) :
    fetchXfers m cmd dummy r (n + 1) =
      fetchXfers m cmd dummy r n ++ xferEvents m (fetchSends cmd dummy n) (r n) := by
  simp [fetchXfers, List.range_succ]

theorem read_xferEvents (m : Mode) {n : Nat} (b r : Byte) (hn : n < 9) :
    (xferEvents m b r).foldlM (Scope.read m) (.inside n) = some (.inside (n + 1)) := by
  have hs : ∀ c : Bool, Scope.read .soft (.inside n) (.sck c) = some (.inside n) ∧
      Scope.read .soft (.inside n) (.mosi c) = some (.inside n) ∧
      Scope.read .soft (.inside n) (.miso c) = some (.inside n) := by
    intro c
    simp [Scope.read, hn]
  have hx : ∀ m : Mode, Scope.read m (.inside n) (.xfer b r) = some (.inside (n + 1)) := by
    intro m
    simp [Scope.read, hn]
  cases m with
  | hard => simp [xferEvents, hx]
  | soft =>
    have hf : ∀ i, (bitFrame b r i).foldlM (Scope.read .soft) (.inside n) = some (.inside n) := by
      intro i
      simp [bitFrame, List.foldlM_cons, (hs _).1, (hs _).2.1, (hs _).2.2]
    have hl : ∀ l : List Nat, (l.flatMap (bitFrame b r)).foldlM (Scope.read .soft) (.inside n) = some (.inside n) := by
      intro l
      induction l with
      | nil => rfl
      | cons i l ih => rw [List.flatMap_cons, read_append (hf i), ih]
    simp only [xferEvents, softFrame, List.append_assoc]
    rw [read_append (hl _)]
    simp [List.foldlM_cons, (hs _).1, hx]

theorem read_fetchXfers (m : Mode) (cmd dummy : Byte) (r : Nat → Byte) {n : Nat} (hn : n ≤ 9) :
    (fetchXfers m cmd dummy r n).foldlM (Scope.read m) (.inside 0) = some (.inside n) := by
  induction n with
  | zero => simp [fetchXfers]
  | succ n ih => rw [fetchXfers_succ, read_append (ih (by omega)), read_xferEvents m _ _ (by omega)]

theorem read_selectEvents (m : Mode) : (selectEvents m).foldlM (Scope.read m) .outside = some (.inside 0) := by
  cases m <;> simp [selectEvents, Scope.read]

theorem read_releaseEvents (m : Mode) : (releaseEvents m).foldlM (Scope.read m) (.inside 9) = some .outside := by
  cases m <;> simp [releaseEvents, Scope.read]

/-- A reader of TRACE passes over a whole fetch (R75, R97). -/
theorem read_fetchEvents (m : Mode) (cmd dummy : Byte) (r : Nat → Byte) :
    (fetchEvents m cmd dummy r).foldlM (Scope.read m) .outside = some .outside := by
  rw [fetchEvents, List.append_assoc, read_append (read_selectEvents m),
    read_append (read_fetchXfers m cmd dummy r (by omega)), read_releaseEvents]

theorem scanTrace_setUp {s : State} (h : scanTrace s.params.mode s.trace = some .outside) :
    scanTrace s.setUp.params.mode s.setUp.trace = some .outside := by
  simp only [State.setUp]
  rw [scanTrace, read_append h]
  split <;> simp [Scope.read]

theorem Ran.scanTrace {s t : State} (h : Ran s t) (hs : scanTrace s.params.mode s.trace = some .outside) :
    scanTrace t.params.mode t.trace = some .outside := by
  induction h with
  | start => exact hs
  | query h ih =>
    simp only [State.queried_params]
    rw [Machine.scanTrace, State.queried, read_append ih]
    simp [Scope.read]
  | presence h ih =>
    simp only [State.presenceRead_params]
    rw [Machine.scanTrace, State.presenceRead, read_append ih]
    simp [Scope.read]
  | fetch ch r h ih =>
    simp only [State.fetched_params]
    rw [Machine.scanTrace, State.fetched, read_append ih, read_fetchEvents]
  | point x y hx hy h ih => exact ih

/-! ### Counting the exchanges of a fetch -/

theorem countP_xferEvents (m : Mode) (b r : Byte) : (xferEvents m b r).countP Event.isXfer = 1 := by
  have : (softFrame b r).countP Event.isXfer = 0 := by simp [softFrame, bitFrame, Event.isXfer]
  cases m <;> simp [xferEvents, List.countP_append, this, Event.isXfer]

theorem countP_fetchXfers (m : Mode) (cmd dummy : Byte) (r : Nat → Byte) (n : Nat) :
    (fetchXfers m cmd dummy r n).countP Event.isXfer = n := by
  induction n with
  | zero => simp [fetchXfers]
  | succ n ih => rw [fetchXfers_succ, List.countP_append, ih, countP_xferEvents]

theorem pres_notMem_fetchXfers (m : Mode) (cmd dummy : Byte) (r : Nat → Byte) (n : Nat) (b : Bool) :
    Event.pres b ∉ fetchXfers m cmd dummy r n := by
  cases m <;> simp [fetchXfers, xferEvents, softFrame, bitFrame]

theorem pres_notMem_fetchEvents (m : Mode) (cmd dummy : Byte) (r : Nat → Byte) (b : Bool) :
    Event.pres b ∉ fetchEvents m cmd dummy r := by
  have := pres_notMem_fetchXfers m cmd dummy r 9 b
  cases m <;> simp [fetchEvents, selectEvents, releaseEvents, this]

end Sys2Proof.Machine
end

