-- ==== Sys2Proof/Laws/PerInstr.lean ====
section
/-! SUPPORT. One statement about every operation as syntax, and one lemma per constructor. -/

open Sys2Proof

namespace Sys2Proof.Laws.EncodedFields

/-- The fields of an operation's word are well formed, read back from the word, and make it a legal word (R51 to R54). -/
def Statement (i : Instr) : Prop :=
  Opw.ofWord (encode i) = i.fields ∧ i.fields.wf = true ∧ i.fields.illegal = none ∧ i.wf = true

theorem init : Statement .init := by unfold Statement; decide
theorem isBusy : Statement .isBusy := by unfold Statement; decide
theorem isTouched : Statement .isTouched := by unfold Statement; decide
theorem getRawPoint : Statement .getRawPoint := by unfold Statement; decide
theorem fetch (ch : Channel) : Statement (.fetch ch) := by unfold Statement; cases ch <;> decide

end Sys2Proof.Laws.EncodedFields
end

