-- ==== Sys2Proof/Laws/Simulation.lean ====
section
/-! SUPPORT. Two runs side by side: a relation that the micro-operations keep is kept by every operation. -/

namespace Sys2Proof.Machine

/-- A relation between states that agree on what the bodies read, kept by everything the bodies do. -/
structure Sim (R : State → State → Prop) : Prop where
  same : ∀ {s t}, R s t → s.params = t.params ∧ s.env = t.env ∧ s.seq = t.seq
  queried : ∀ {s t}, R s t → R s.queried t.queried
  presence : ∀ {s t}, R s t → R s.presenceRead t.presenceRead
  fetched : ∀ {s t}, R s t → ∀ ch r, R (s.fetched ch r) (t.fetched ch r)
  hung : ∀ {s t}, R s t → ∀ ch r n, R (s.hungFetch ch r n) (t.hungFetch ch r n)
  point : ∀ {s t}, R s t → ∀ x y, R (s.writePoint x y) (t.writePoint x y)
  setUp : ∀ {s t}, R s t → R s.setUp t.setUp
  complete : ∀ {s t}, R s t → ∀ v, R (s.complete v) (t.complete v)

/-- Two micro-operations end alike, in related states. -/
def Micro.Alike {α : Type} (R : State → State → Prop) (m m' : Micro α) : Prop :=
  (∃ a t t', m = .done a t ∧ m' = .done a t' ∧ R t t' ∧ t.seq = .idle) ∨
    ∃ t t', m = .hung t ∧ m' = .hung t' ∧ R t t'

theorem Micro.Alike.bind {α β : Type} {R : State → State → Prop} {m m' : Micro α} {f f' : α → State → Micro β}
    (h : m.Alike R m') (hf : ∀ a t t', R t t' → t.seq = .idle → (f a t).Alike R (f' a t')) :
    (m.bind f).Alike R (m'.bind f') := by
  obtain ⟨a, t, t', rfl, rfl, h, h'⟩ | ⟨t, t', rfl, rfl, h⟩ := h
  · exact hf a t t' h h'
  · exact .inr ⟨t, t', rfl, rfl, h⟩

theorem Micro.Alike.ite {α : Type} {R : State → State → Prop} {c : Bool} {i j : Decidable (c = true)}
    {m m' k k' : Micro α} (h : c = true → m.Alike R m') (h' : c = false → k.Alike R k') :
    (@ite _ (c = true) i m k).Alike R (@ite _ (c = true) j m' k') := by
  cases c with
  | true => simpa using h rfl
  | false => simpa using h' rfl

variable {R : State → State → Prop} {s t : State}

theorem Sim.busyAnswer (S : Sim R) (h : R s t) (k : Nat) : s.busyAnswer k = t.busyAnswer k := by
  obtain ⟨h1, h2, -⟩ := S.same h
  simp [State.busyAnswer, h1, State.busyAt, h2]

theorem Sim.fetchSeq (S : Sim R) (h : R s t) (hs : s.seq = .idle) (ch : Channel) :
    (fetchSeq ch s).Alike R (fetchSeq ch t) := by
  obtain ⟨h1, h2, h3⟩ := S.same h
  have hrx : ∀ k, s.rxByte k = t.rxByte k := by
    intro k
    simp [State.rxByte, h1, State.misoAt, h2, State.exchangeAt]
  obtain ⟨r, hr, he⟩ | ⟨n, r, hn, hr, hx, hm, he⟩ := fetchSeq_cases ch hs
  · have := fetchSeq_done (ch := ch) (s := t) (r := r) (h3 ▸ hs) fun k hk => (hrx k) ▸ hr k hk
    exact .inl ⟨_, _, _, he, this, S.fetched h ch r, by simpa using hs⟩
  · have := fetchSeq_hung (ch := ch) (s := t) (r := r) (h3 ▸ hs) hn (fun k hk => (hrx k) ▸ hr k hk) (hrx n ▸ hx)
    exact .inr ⟨_, _, he, this.2, S.hung h ch r n⟩

theorem Sim.touchQuery (S : Sim R) (h : R s t) (hs : s.seq = .idle) : (touchQuery s).Alike R (touchQuery t) := by
  unfold Machine.touchQuery
  obtain ⟨h1, h2, h3⟩ := S.same h
  simp only [busyQuery_eq, presenceQuery_eq, S.busyAnswer h]
  split
  · exact .inl ⟨_, _, _, rfl, rfl, S.queried h, hs⟩
  · simp only [State.queried_params, h1]
    refine Micro.Alike.ite (fun _ => ?_) (fun _ => ?_)
    · have : s.queried.presenceAt 0 = t.queried.presenceAt 0 := by
        simp only [State.presenceAt_queried]
        simp [State.presenceAt, h2]
      rw [this]
      exact .inl ⟨_, _, _, rfl, rfl, S.presence (S.queried h), hs⟩
    · refine (S.fetchSeq (S.queried h) hs .z1).bind fun a u u' hu hu' => ?_
      rw [(S.same hu).1]
      exact .inl ⟨_, _, _, rfl, rfl, hu, hu'⟩

/-- From related states, every body ends alike. -/
theorem Sim.body (S : Sim R) (h : R s t) (hs : s.seq = .idle) (i : Instr) : (bodyOf i s).Alike R (bodyOf i t) := by
  cases i with
  | init =>
    simp only [bodyOf, initBody, initSetup_eq]
    exact (S.fetchSeq (S.setUp h) hs .x).bind fun a u u' hu hu' => .inl ⟨_, _, _, rfl, rfl, hu, hu'⟩
  | isBusy =>
    simp only [bodyOf, isBusyBody, busyQuery_eq, S.busyAnswer h]
    exact .inl ⟨_, _, _, rfl, rfl, S.queried h, hs⟩
  | isTouched => exact (S.touchQuery h hs).bind fun a u u' hu hu' => .inl ⟨_, _, _, rfl, rfl, hu, hu'⟩
  | fetch ch => exact S.fetchSeq h hs ch
  | getRawPoint =>
    refine Micro.Alike.bind (R := R) ?_ fun a u u' hu hu' => .inl ⟨_, _, _, rfl, rfl, hu, hu'⟩
    unfold pointQuery
    simp only [busyQuery_eq, S.busyAnswer h]
    split
    · exact .inl ⟨_, _, _, rfl, rfl, S.queried h, hs⟩
    · refine (S.touchQuery (S.queried h) hs).bind fun a u u' hu hu' => ?_
      split
      · refine (S.fetchSeq hu hu' .x).bind fun x u u' hu hu' => ?_
        refine (S.fetchSeq hu hu' .y).bind fun y u u' hu hu' => ?_
        simp only [State.writePoint_params, (S.same hu).1]
        exact Micro.Alike.ite (fun _ => S.touchQuery (S.point hu x y) hu')
          (fun _ => .inl ⟨_, _, _, rfl, rfl, S.point hu x y, hu'⟩)
      · exact .inl ⟨_, _, _, rfl, rfl, hu, hu'⟩

/-- From related states on which the checks agree, every operation ends alike. -/
theorem Sim.exec (S : Sim R) {u : State} {i : Instr} (h : R s t) (hf : s.fault = t.fault)
    (hd : s.initDone = t.initDone) (hr : ∀ c w, R (s.raise c w) (t.raise c w)) (he : exec i s = .next u) :
    ∃ u', exec i t = .next u' ∧ R u u' := by
  obtain ⟨h1, h2, h3⟩ := S.same h
  obtain ⟨hs, ⟨c, hc, rfl⟩ | ⟨hc, rfl⟩⟩ := exec_cases he
  · have : t.initCheck i = some c := by
      rw [← hc]
      simp only [State.initCheck, hd]
    exact ⟨_, exec_raise ⟨h3 ▸ hs.1, hf ▸ hs.2⟩ this, hr _ _⟩
  · have : t.initCheck i = none := by
      rw [← hc]
      simp only [State.initCheck, hd]
    refine ⟨_, exec_body ⟨h3 ▸ hs.1, hf ▸ hs.2⟩ this, ?_⟩
    obtain ⟨a, t, t', e, e', h, -⟩ | ⟨t, t', e, e', h⟩ := S.body h hs.1 i
    · rw [e, e']
      exact S.complete h a
    · rw [e, e']
      exact h

end Sys2Proof.Machine
end

