-- ==== Sys2Proof/Tests/Slice0.lean ====
section
/-! SUPPORT. Tests: the words of the spec's tables, one small step per operation with the expected result from
95_test_vectors.md, and for every statement with hypotheses a state and operands that meet them. -/

open Sys2Proof Sys2Proof.Machine

namespace Sys2Proof.Tests

/-! ### Well-formedness: an ill-formed term for each check, which the check refuses -/

theorem test_wf_reserved_op : (Opw.mk 5 0 0 0).wf = false ∧ (Opw.mk 4 0 0 0).wf = true := by decide
theorem test_wf_rsv1 : (Opw.mk 0 1 0 0).wf = false := by decide
theorem test_wf_rsv0 : (Opw.mk 4 0 3 1).wf = false := by decide
theorem test_wf_channel_outside_fetch : (Opw.mk 3 0 1 0).wf = false ∧ (Opw.mk 4 0 1 0).wf = true := by decide
theorem test_wf_instr : Instr.all.all Instr.wf = true := by decide

/-! ### Decoding: R55's words bit by bit, and the decoder table of 95_test_vectors.md -/

theorem test_decode_init : decode 0b0000000000000000 = .ok .init := by decide
theorem test_decode_isBusy : decode 0b0001000000000000 = .ok .isBusy := by decide
theorem test_decode_isTouched : decode 0b0010000000000000 = .ok .isTouched := by decide
theorem test_decode_getRawPoint : decode 0b0011000000000000 = .ok .getRawPoint := by decide
theorem test_decode_fetch :
    decode 0b0100000000000000 = .ok (.fetch .x) ∧ decode 0b0100000100000000 = .ok (.fetch .y) ∧
      decode 0b0100001000000000 = .ok (.fetch .z1) ∧ decode 0b0100001100000000 = .ok (.fetch .z2) := by decide

theorem test_decode_illegal :
    [0x0001, 0x2080, 0x4301, 0x4380].all (fun w => decode w == .error .nonzeroRsv0) = true ∧
      [0x0100, 0x1100, 0x3300].all (fun w => decode w == .error .channelOutsideFetch) = true ∧
      [0x0400, 0x0800, 0x4400, 0x4800, 0x4C00, 0x4F00].all (fun w => decode w == .error .nonzeroRsv1) = true ∧
      [0x5000, 0x7FFF, 0xF000, 0xFFFF].all (fun w => decode w == .error .reservedOp) = true := by decide

theorem test_decodeTableWord :
    decodeTableWord 16 0x4200 = some (.fetch .z1) ∧ decodeTableWord 16 0x4201 = none ∧
      decodeTableWord 8 0x00 = some .init ∧ decodeTableWord 32 0x14000 = none := by decide

theorem test_assembler :
    Asm.line ['F', 'E', 'T', 'C', 'H', ' ', 'Z', '1', ' ', ';', 'c'] = some (some (.fetch .z1)) ∧
      Asm.line ['F', 'E', 'T', 'C', 'H'] = none ∧ Asm.line ['i', 'n', 'i', 't'] = none ∧
      Asm.assemble [['I', 'N', 'I', 'T'], [';'], ['I', 'S', '_', 'B', 'U', 'S', 'Y']] = some [0x0000, 0x1000] := by
  decide

/-! ### Small states -/

/-- The parameters of 95_test_vectors.md's programs. -/
def params (m : Mode) (presence : Bool) : Params where
  mode := m
  hasPresence := presence
  z1Threshold := 10
  cmdX := 0x90
  cmdY := 0xD0
  cmdZ1 := 0xB0
  cmdZ2 := 0xC0
  spiClock := 1
  pinSck := 0
  pinMosi := 1
  pinMiso := 2
  pinCs := 3
  pinPres := 4
  peripheral := 5

/-- The data-in samples that make up a byte. -/
def bits (b : Byte) : List Bool := [7, 6, 5, 4, 3, 2, 1, 0].map b.getLsbD

/-- An environment for SOFT mode: bytes received and presence levels. -/
def softEnv (bytes : List Byte) (presence : List Bool) : Environment :=
  ⟨⟨bytes.flatMap bits, 0⟩, .fresh, .fresh, ⟨presence, 0⟩⟩

/-- An environment for HARD mode: answers of `p_exchange` and `p_busy`, and presence levels. -/
def hardEnv (bytes : List (Option Byte)) (busy presence : List Bool) : Environment :=
  ⟨.fresh, ⟨bytes, 0⟩, ⟨busy, 0⟩, ⟨presence, 0⟩⟩

/-- A block after an INIT that received zero bytes, with an earlier point (7, 8) as in the GET_RAW_POINT vectors. -/
def ready (p : Params) (env : Environment) : State :=
  { State.resetWith p env [] with
    initDone := true
    xOut := 7
    yOut := 8
    cs := .high
    sck := match p.mode with | .soft => .low | .hard => .undriven
    mosi := match p.mode with | .soft => .low | .hard => .undriven
    pcfg := match p.mode with | .soft => none | .hard => some (initialPcfg p)
    trace := [.cfg, .cs true] ++ fetchEvents p.mode p.cmdX p.dummy fun _ => 0 }

/-- The next state of an outcome. -/
def next (o : Host.Outcome State Fault Refusal) : Option State :=
  match o with
  | .next t => some t
  | .fault _ => none
  | .refused _ => none

/-- The bytes of vector V-FE1: samples 100, 102, 500. -/
def fe1 : List Byte := [0x00, 0x06, 0x40, 0x00, 0x06, 0x60, 0x00, 0x1F, 0x40]

/-- The bytes of vector V-FE5: samples 0, 4095, 2048. -/
def fe5 : List Byte := [0x00, 0x00, 0x00, 0x00, 0xFF, 0xF0, 0x00, 0x80, 0x00]

/-- The bytes of program P1's Y fetch: samples 500, 100, 102. -/
def w3 : List Byte := [0x00, 0x1F, 0x40, 0x00, 0x06, 0x40, 0x00, 0x06, 0x60]

/-- The bytes of program P2's second Z1 fetch: samples 10, 10, 4000. -/
def z10 : List Byte := [0x00, 0x00, 0xA0, 0x00, 0x00, 0xA0, 0x00, 0xFA, 0x00]

/-- The bytes of program P2's first Z1 fetch: samples 9, 8, 9. -/
def z9 : List Byte := [0x00, 0x00, 0x90, 0x00, 0x00, 0x80, 0x00, 0x00, 0x90]

/-! ### One step per operation -/

/-- V-I1, V-I3: INIT in HARD mode, its trace and end state. -/
theorem test_init :
    (next (exec .init (State.resetWith (params .hard true) (hardEnv (List.replicate 9 (some 0)) [] []) []))).map
        (fun t => (t.opTrace, t.initDone, t.cs, t.sck, t.periphOpen)) =
      some ([.cfg, .cs true, .cfg, .periphOpen, .cs false, .xfer 0x90 0, .xfer 0 0, .xfer 0 0, .xfer 0x90 0, .xfer 0 0,
        .xfer 0 0, .xfer 0x90 0, .xfer 0 0, .xfer 0 0, .cs true, .periphClose], true, .high, .undriven, false) := by
  decide

/-- V-I4: the priming fetch hangs on its fourth exchange. -/
theorem test_init_hangs :
    (next (exec .init (State.resetWith (params .hard true) (hardEnv [some 0, some 0, some 0, none] [] []) []))).map
        (fun t => (t.initDone, t.cs, t.periphOpen, t.seq, t.fault)) =
      some (true, .low, true, .xfer 1 0, none) := by
  decide

/-- V-B2. -/
theorem test_isBusy :
    (next (exec .isBusy (ready (params .hard true) (hardEnv [] [true] [])))).map (fun t => (t.res, t.trace.getLast?)) =
      some (1, some (.busyq true)) := by
  decide

/-- V-T2, V-T3. -/
theorem test_isTouched_presence :
    (next (exec .isTouched (ready (params .soft true) (softEnv [] [false])))).map State.res = some 1 ∧
      (next (exec .isTouched (ready (params .soft true) (softEnv [] [true])))).map State.res = some 0 := by
  decide

/-- V-T5, V-T6 (their bytes in HARD mode). -/
theorem test_isTouched_pressure :
    (next (exec .isTouched (ready (params .hard false) (hardEnv (z9.map some) [false] [])))).map State.res = some 0 ∧
      (next (exec .isTouched (ready (params .hard false) (hardEnv (z10.map some) [false] [])))).map State.res =
        some 1 := by
  decide

/-- V-P5 (its bytes in HARD mode). -/
theorem test_getRawPoint :
    (next (exec .getRawPoint
        (ready (params .hard true) (hardEnv ((fe1 ++ w3).map some) [false, false] [false])))).map
        (fun t => (t.res, t.xOut, t.yOut)) = some (1, 101, 101) := by
  decide

/-- V-P7: a hang in the Y fetch leaves both outputs. -/
theorem test_getRawPoint_hangs :
    (next (exec .getRawPoint
        (ready (params .hard true) (hardEnv (fe1.map some ++ [none]) [false, false] [false])))).map
        (fun t => (t.xOut, t.yOut, t.seq, t.cs)) = some (7, 8, .xfer 0 0, .low) := by
  decide

/-- V-FT2. -/
theorem test_fetch :
    (next (exec (.fetch .z2) (ready (params .hard true) (hardEnv (fe5.map some) [] [])))).map
        (fun t => (t.res, t.trace.drop 15)) =
      some (3071, [.periphOpen, .cs false, .xfer 0xC0 0, .xfer 0 0, .xfer 0 0, .xfer 0xC0 0, .xfer 0 0xFF, .xfer 0 0xF0,
        .xfer 0xC0 0, .xfer 0 0x80, .xfer 0 0, .cs true, .periphClose]) := by
  decide

/-- V-FE1 in SOFT mode. -/
theorem test_fetch_soft :
    (next (exec (.fetch .x) (ready (params .soft true) (softEnv fe1 [])))).map (fun t => (t.res, t.sck, t.mosi)) =
      some (101, .low, .low) := by
  decide

/-- V-X1: the lines and the result of XFER(0x12A5). -/
theorem test_xferSoft :
    ((xferSoft 0x12A5 (ready (params .soft true) (softEnv [0x7F] []))).1,
      (xferSoft 0x12A5 (ready (params .soft true) (softEnv [0x7F] []))).2.mosi) = (0x007F, .high) := by
  decide

/-- V-F14, V-F15, V-F21, V-F4 and the worked example of R107. -/
theorem test_filter :
    filterOf 0 10 5 = 2 ∧ filterOf 10 0 5 = 7 ∧ filterOf 0 4095 2048 = 3071 ∧ filterOf 9 8 9 = 9 ∧
      filterOf 100 500 104 = 102 := by decide

/-- V-R3. -/
theorem test_assembleSample : assembleSample 0xAB 0xCD = 0x0ABC := by decide

/-- V-E1, V-E2. -/
theorem test_faults :
    (next (exec .isTouched (State.resetWith (params .soft true) (softEnv [] []) []))).map State.fault =
        some (some ⟨.notInit, 0x2000⟩) ∧
      (next (exec .init (ready (params .soft true) (softEnv [] [])))).map State.fault =
        some (some ⟨.reinit, 0x0000⟩) := by
  decide

/-- V-E3, V-E7. -/
theorem test_faults_step :
    (next (step (State.resetWith (params .soft true) (softEnv [] []) [0x5000]))).map State.fault =
        some (some ⟨.illegal, 0x5000⟩) ∧
      (next (step { State.resetWith (params .soft true) (softEnv [] []) [0x0000] with
        fault := some ⟨.notInit, 0x2000⟩ })).map State.fault = none := by
  decide

/-! ### Witnesses: for every statement with hypotheses, operands and a state that meet them

One conjunct per clause of a statement with several, at the ends of its ranges. -/

/-- A block just after reset, with requests. -/
def cold (p : Params) (env : Environment) (requests : List Word) : State := State.resetWith p env requests

/-- A HARD block after INIT, with answers of `p_exchange`, `p_busy` and the presence line. -/
def hard (presence : Bool) (bytes : List (Option Byte)) (busy pres : List Bool) : State :=
  ready (params .hard presence) (hardEnv bytes busy pres)

/-- A SOFT block after INIT, with bytes received and presence levels. -/
def soft (presence : Bool) (bytes : List Byte) (pres : List Bool) : State :=
  ready (params .soft presence) (softEnv bytes pres)

/-- A HARD block stuck at the fourth exchange of a fetch. -/
def stuckBlock : State := (hard true [some 0, some 0, some 0, none] [] []).hungFetch .x (fun _ => 0) 3

/-- A block with a fault recorded. -/
def faultedBlock : State := State.raise .notInit 0x2000 (cold (params .soft true) (softEnv [] []) [0x0000])

/-- The bytes of a list, in order. -/
def at9 (bytes : List Byte) (k : Nat) : Byte := bytes.getD k 0

theorem witness_DecodeFollowsTheFields :
    ((0x4300#16).toNat / 4096 = 4 ∧ (0x4300#16).toNat / 1024 % 4 = 0 ∧ (0x4300#16).toNat % 256 = 0) ∧
      ((0x3000#16).toNat / 4096 < 4 ∧ (0x3000#16).toNat % 4096 = 0) ∧
      ¬((0x4301#16).toNat / 4096 = 4 ∧ (0x4301#16).toNat / 1024 % 4 = 0 ∧ (0x4301#16).toNat % 256 = 0) ∧
      ¬((0x4301#16).toNat / 4096 < 4 ∧ (0x4301#16).toNat % 4096 = 0) ∧
      (cold (params .soft true) (softEnv [] []) [0x4301]).Ready ∧
      (cold (params .soft true) (softEnv [] []) [0x4301]).resetLine = false ∧
      (cold (params .soft true) (softEnv [] []) [0x4301]).requests = [0x4301] := by
  simp only [State.Ready]
  decide

theorem witness_StepRunsDecodedRequest :
    (cold (params .soft true) (softEnv [] []) [0x0000]).resetLine = false ∧
      (cold (params .soft true) (softEnv [] []) [0x0000]).requests = [0x0000] ∧ decode 0x0000 = .ok .init := by
  decide

theorem witness_ChecksRunInOrder :
    (faultedBlock.seq = .idle ∧ faultedBlock.resetLine = false ∧ faultedBlock.requests = [0x0000] ∧
        faultedBlock.fault ≠ none) ∧
      (decode 0x5000 = .error .reservedOp ∧ decode 0x2000 = .ok .isTouched) ∧
      (∀ w, (cold (params .soft true) (softEnv [] []) [w]).seq = .idle ∧
        (cold (params .soft true) (softEnv [] []) [w]).resetLine = false ∧
        (cold (params .soft true) (softEnv [] []) [w]).requests = [w] ∧
        (cold (params .soft true) (softEnv [] []) [w]).fault = none ∧
        (cold (params .soft true) (softEnv [] []) [w]).initDone = false) ∧
      decode 0x0000 = .ok .init ∧ (soft true [] []).initDone = true ∧ (soft true [] []).seq = .idle ∧
        (soft true [] []).fault = none :=
  ⟨⟨rfl, rfl, rfl, by decide⟩, by decide, fun _ => ⟨rfl, rfl, rfl, rfl, rfl⟩, by decide, rfl, rfl, rfl⟩

theorem witness_NoRequestNoChange :
    (soft true [] []).Ready ∧ (soft true [] []).resetLine = false ∧ (soft true [] []).requests = [] := by
  simp only [State.Ready]
  decide

theorem witness_ResetAndOnlyResetClears :
    (∃ t, step { stuckBlock with resetLine := true } = .next t) ∧
      (∃ t, step { soft true [] [] with requests := [0x1000] } = .next t) ∧
      (soft true [] []).resetLine = false ∧ (soft true [] []).initDone = true :=
  ⟨⟨_, rfl⟩, ⟨_, rfl⟩, rfl, rfl⟩

theorem witness_FaultedBlockTakesNoStep :
    faultedBlock.Faulted ∧ faultedBlock.seq = .idle ∧ faultedBlock.resetLine = false := by
  simp only [State.Faulted]
  decide

/-- The invariant holds of a HARD block after INIT. -/
theorem hard_inv : (hard true [] [] []).Inv := by
  constructor <;> simp [hard, ready, params, State.resetWith]

/-- The invariant holds of a SOFT block after INIT. -/
theorem soft_inv : (soft true [] []).Inv := by
  constructor <;> simp [soft, ready, params, State.resetWith, Level.ofBit]

/-- The invariant holds of a block after reset. -/
theorem cold_inv (p : Params) (env : Environment) (requests : List Word) : (cold p env requests).Inv := by
  constructor <;> simp [cold, State.resetWith]

theorem witness_StuckBlockTakesNoStep : stuckBlock.Inv ∧ stuckBlock.Stuck ∧ stuckBlock.resetLine = false := by
  refine ⟨?_, by unfold State.Stuck; decide, rfl⟩
  constructor <;>
    simp [stuckBlock, hard, ready, params, State.resetWith, State.hungFetch, State.afterXfers, State.afterExchange,
      samplesOf, assembleSample, zext16]

theorem witness_InitMustComeFirstAndOnce :
    (cold (params .soft true) (softEnv [] []) []).Ready ∧
      (cold (params .soft true) (softEnv [] []) []).initDone = false ∧ Instr.isBusy ≠ .init ∧
      (soft true [] []).Ready ∧ (soft true [] []).initDone = true := by
  simp only [State.Ready]
  decide

theorem witness_FaultEntryIsPrecise :
    ∃ t, step (cold (params .soft true) (softEnv [] []) [0x2000]) = .next t ∧ t.Faulted :=
  ⟨_, rfl, by unfold State.Faulted; decide⟩

/-- A ready block for each of the three outcomes, which FETCH has in it. -/
theorem witness_ExactlyOneOutcome :
    ((hard true (fe5.map some) [] []).Ready ∧
        ∃ t, exec (.fetch .x) (hard true (fe5.map some) [] []) = .next t ∧ t.Completed) ∧
      ((cold (params .hard true) (hardEnv [] [] []) []).Ready ∧
        ∃ t, exec (.fetch .x) (cold (params .hard true) (hardEnv [] [] []) []) = .next t ∧ t.Faulted) ∧
      (hard true [some 0, none] [] []).Ready ∧
      ∃ t, exec (.fetch .x) (hard true [some 0, none] [] []) = .next t ∧ t.Stuck :=
  ⟨⟨⟨rfl, rfl⟩, _, rfl, by unfold State.Completed; decide⟩, ⟨⟨rfl, rfl⟩, _, rfl, by unfold State.Faulted; decide⟩,
    ⟨rfl, rfl⟩, _, rfl, by unfold State.Stuck; decide⟩

theorem witness_SoftOperationsComplete :
    ((cold (params .soft true) (softEnv [] []) []).Ready ∧ (params .soft true).mode = .soft ∧
        (Instr.init = .init ↔ (cold (params .soft true) (softEnv [] []) []).initDone = false)) ∧
      (soft true [] []).Ready ∧ (Instr.getRawPoint = .init ↔ (soft true [] []).initDone = false) := by
  simp only [State.Ready]
  decide

theorem witness_InitCompletes :
    ((cold (params .soft true) (softEnv fe1 []) []).Ready ∧
        (cold (params .soft true) (softEnv fe1 []) []).initDone = false ∧
        (cold (params .soft true) (softEnv fe1 []) []).Receives 9 (at9 fe1)) ∧
      (cold (params .hard false) (hardEnv (fe1.map some) [] []) []).Ready ∧
      (cold (params .hard false) (hardEnv (fe1.map some) [] []) []).Receives 9 (at9 fe1) := by
  simp only [State.Ready, State.Receives]
  decide

/-- At the first exchange and at the last. -/
theorem witness_InitHangs :
    ((cold (params .hard true) (hardEnv [none] [] []) []).Ready ∧
        (cold (params .hard true) (hardEnv [none] [] []) []).initDone = false ∧
        (cold (params .hard true) (hardEnv [none] [] []) []).Receives 0 (at9 []) ∧
        (cold (params .hard true) (hardEnv [none] [] []) []).rxByte 0 = none) ∧
      (cold (params .hard true) (hardEnv ((fe1.take 8).map some ++ [none]) [] []) []).Receives 8 (at9 fe1) ∧
      (cold (params .hard true) (hardEnv ((fe1.take 8).map some ++ [none]) [] []) []).rxByte 8 = none := by
  simp only [State.Ready, State.Receives]
  decide

theorem witness_StateAfterInit :
    ((cold (params .hard true) (hardEnv (fe1.map some) [] []) []).Inv ∧
        (cold (params .hard true) (hardEnv (fe1.map some) [] []) []).Ready ∧
        (cold (params .hard true) (hardEnv (fe1.map some) [] []) []).initDone = false ∧
        ∃ t, exec .init (cold (params .hard true) (hardEnv (fe1.map some) [] []) []) = .next t ∧ t.Completed) ∧
      (cold (params .soft true) (softEnv fe1 []) []).Inv ∧ (cold (params .soft true) (softEnv fe1 []) []).Ready ∧
      ∃ t, exec .init (cold (params .soft true) (softEnv fe1 []) []) = .next t ∧ t.Completed := by
  refine ⟨⟨cold_inv _ _ _, ⟨rfl, rfl⟩, rfl, _, rfl, by unfold State.Completed; decide⟩, cold_inv _ _ _, ⟨rfl, rfl⟩, _,
    exec_body (i := .init) ⟨rfl, rfl⟩ rfl, ?_⟩
  obtain ⟨v, t, -, he, ht, -⟩ | ⟨u, ch, r, n, -, -, hu, hm, -⟩ :=
    settle_cases .init (s := cold (params .soft true) (softEnv fe1 []) []) rfl
  · rw [he]
    exact ⟨ht.seq, ht.fault⟩
  · rw [hu.params] at hm
    cases hm

theorem witness_IsBusyCompletes :
    (soft true [] []).Running ∧ (soft true [] []).params.mode = .soft ∧ (hard true [] [true] []).Running ∧
      (hard true [] [true] []).params.mode = .hard := by
  simp only [State.Running, State.Ready]
  decide

theorem witness_BusyIsTouchedAnswersZero :
    (hard false [] [true] []).Running ∧ (hard false [] [true] []).busyAnswer 0 = true := by
  simp only [State.Running, State.Ready]
  decide

theorem witness_IsTouchedReadsPresenceLine :
    ((soft true [] [false]).Running ∧ (soft true [] [false]).busyAnswer 0 = false ∧
        (soft true [] [false]).params.hasPresence = true) ∧
      (hard true [] [false] [true]).Running ∧ (hard true [] [false] [true]).busyAnswer 0 = false := by
  simp only [State.Running, State.Ready]
  decide

/-- A sample at the threshold and one just below it. -/
theorem witness_IsTouchedComparesPressure :
    ((soft false z10 []).Running ∧ (soft false z10 []).busyAnswer 0 = false ∧
        (soft false z10 []).params.hasPresence = false ∧ (soft false z10 []).Receives 9 (at9 z10) ∧
        fetchValue (at9 z10) = 10) ∧
      (hard false (z9.map some) [false] []).Running ∧ (hard false (z9.map some) [false] []).busyAnswer 0 = false ∧
      (hard false (z9.map some) [false] []).Receives 9 (at9 z9) ∧ fetchValue (at9 z9) = 9 := by
  simp only [State.Running, State.Ready, State.Receives]
  decide

/-- At the first exchange and at the last. -/
theorem witness_IsTouchedHangs :
    ((hard false [none] [false] []).Running ∧ (hard false [none] [false] []).busyAnswer 0 = false ∧
        (hard false [none] [false] []).params.hasPresence = false ∧ (hard false [none] [false] []).Receives 0 (at9 []) ∧
        (hard false [none] [false] []).rxByte 0 = none) ∧
      (hard false ((z9.take 8).map some ++ [none]) [false] []).Running ∧
      (hard false ((z9.take 8).map some ++ [none]) [false] []).busyAnswer 0 = false ∧
      (hard false ((z9.take 8).map some ++ [none]) [false] []).Receives 8 (at9 z9) ∧
      (hard false ((z9.take 8).map some ++ [none]) [false] []).rxByte 8 = none := by
  simp only [State.Running, State.Ready, State.Receives]
  decide

/-- A block whose threshold is t. -/
def withThreshold (t : Word) : State :=
  ready { params .hard false with z1Threshold := t } (hardEnv (z9.map some) [false] [])

theorem witness_ThresholdExtremes :
    ((withThreshold 0).Running ∧ (withThreshold 0).params.hasPresence = false ∧ (withThreshold 0).busyAnswer 0 = false ∧
        ∃ t, exec .isTouched (withThreshold 0) = .next t ∧ t.Completed) ∧
      (withThreshold 4096).Running ∧ (withThreshold 4096).params.hasPresence = false ∧
      4095 < (withThreshold 4096).params.z1Threshold.toNat ∧
      ∃ t, exec .isTouched (withThreshold 4096) = .next t ∧ t.Completed :=
  ⟨⟨⟨⟨rfl, rfl⟩, rfl⟩, rfl, rfl, _, rfl, by unfold State.Completed; decide⟩, ⟨⟨rfl, rfl⟩, rfl⟩, rfl, by decide, _, rfl,
    by unfold State.Completed; decide⟩

theorem witness_BusyPointReadAnswersZero :
    ((hard true [] [true] []).Running ∧ (hard true [] [true] []).busyAnswer 0 = true) ∧
      (hard true [] [false, true] []).Running ∧ (hard true [] [false, true] []).busyAnswer 0 = false ∧
      (hard true [] [false, true] []).busyAnswer 1 = true := by
  simp only [State.Running, State.Ready]
  decide

theorem witness_UntouchedPointReadAnswersZero :
    ((soft true [] [true]).Running ∧ (soft true [] [true]).busyAnswer 0 = false ∧
        (soft true [] [true]).busyAnswer 1 = false ∧ (soft true [] [true]).params.hasPresence = true ∧
        (soft true [] [true]).presenceAt 0 = true) ∧
      (soft false z9 []).Running ∧ (soft false z9 []).params.hasPresence = false ∧
      (soft false z9 []).Receives 9 (at9 z9) ∧
      (fetchValue (at9 z9)).toNat < (soft false z9 []).params.z1Threshold.toNat := by
  simp only [State.Running, State.Ready, State.Receives]
  decide

theorem witness_PointReadByPresence :
    (hard true ((fe1 ++ w3).map some) [false, false] [false]).Running ∧
      (hard true ((fe1 ++ w3).map some) [false, false] [false]).busyAnswer 0 = false ∧
      (hard true ((fe1 ++ w3).map some) [false, false] [false]).busyAnswer 1 = false ∧
      (hard true ((fe1 ++ w3).map some) [false, false] [false]).params.pointPostcheck = false ∧
      (hard true ((fe1 ++ w3).map some) [false, false] [false]).params.hasPresence = true ∧
      (hard true ((fe1 ++ w3).map some) [false, false] [false]).presenceAt 0 = false ∧
      (hard true ((fe1 ++ w3).map some) [false, false] [false]).Receives 18 (at9 (fe1 ++ w3)) := by
  simp only [State.Running, State.Ready, State.Receives]
  decide

/-- The Z1 sample is the threshold itself. -/
theorem witness_PointReadByPressure :
    (hard false ((z10 ++ fe1 ++ w3).map some) [false, false] []).Running ∧
      (hard false ((z10 ++ fe1 ++ w3).map some) [false, false] []).busyAnswer 0 = false ∧
      (hard false ((z10 ++ fe1 ++ w3).map some) [false, false] []).busyAnswer 1 = false ∧
      (hard false ((z10 ++ fe1 ++ w3).map some) [false, false] []).params.pointPostcheck = false ∧
      (hard false ((z10 ++ fe1 ++ w3).map some) [false, false] []).params.hasPresence = false ∧
      (hard false ((z10 ++ fe1 ++ w3).map some) [false, false] []).Receives 27 (at9 (z10 ++ fe1 ++ w3)) ∧
      (hard false ((z10 ++ fe1 ++ w3).map some) [false, false] []).params.z1Threshold.toNat ≤
        (fetchValue (at9 (z10 ++ fe1 ++ w3))).toNat := by
  simp only [State.Running, State.Ready, State.Receives]
  decide

/-- A touched block whose n-th exchange never returns, n at most 18. -/
def pointHang (n : Nat) : State :=
  hard true (((fe1 ++ w3).take n).map some ++ [none]) [false, false] [false]

/-- The last exchange of the X fetch and the first of the Y fetch, where the two clauses meet. -/
theorem witness_PointReadHangs :
    ((pointHang 8).Running ∧ (pointHang 8).busyAnswer 0 = false ∧ (pointHang 8).busyAnswer 1 = false ∧
        (pointHang 8).params.hasPresence = true ∧ (pointHang 8).presenceAt 0 = false ∧
        (pointHang 8).Receives 8 (at9 (fe1 ++ w3)) ∧ (pointHang 8).rxByte 8 = none) ∧
      (pointHang 9).Running ∧ (pointHang 9).busyAnswer 0 = false ∧ (pointHang 9).busyAnswer 1 = false ∧
      (pointHang 9).params.hasPresence = true ∧ (pointHang 9).presenceAt 0 = false ∧
      (pointHang 9).Receives 9 (at9 (fe1 ++ w3)) ∧ (pointHang 9).rxByte 9 = none := by
  simp only [State.Running, State.Ready, State.Receives]
  decide

/-- A block without a presence line whose n-th exchange never returns, n at most 27; the Z1 sample is the threshold. -/
def pressureHang (n : Nat) : State :=
  hard false (((z10 ++ fe1 ++ w3).take n).map some ++ [none]) [false, false] []

/-- The last exchange of the Z1 fetch and the first of the X fetch, the last of the X fetch and the first of the Y fetch. -/
theorem witness_PressurePointReadHangs :
    ∀ n ∈ [8, 9, 17, 18], (pressureHang n).Running ∧ (pressureHang n).busyAnswer 0 = false ∧
      (pressureHang n).busyAnswer 1 = false ∧ (pressureHang n).params.hasPresence = false ∧ n < 27 ∧
      (pressureHang n).Receives n (at9 (z10 ++ fe1 ++ w3)) ∧ (pressureHang n).rxByte n = none ∧
      (pressureHang n).params.z1Threshold.toNat ≤ (fetchValue (at9 (z10 ++ fe1 ++ w3))).toNat := by
  simp only [State.Running, State.Ready, State.Receives]
  decide

/-- A touched block with POINT_POSTCHECK, whose last busy query answers `busy`. -/
def postcheck (presence busy : Bool) : State :=
  ready { params .hard presence with pointPostcheck := true }
    (hardEnv (((if presence then [] else z10) ++ fe1 ++ w3 ++ z9).map some) [false, false, busy] [false, true])

/-- The state the touch check of `postcheck` leaves. -/
def postU (presence busy : Bool) : State :=
  if presence then (postcheck presence busy).queried.queried.presenceRead
  else (postcheck presence busy).queried.queried.fetched .z1 (at9 z10)

/-- The state its fetches and outputs leave. -/
def postV (presence busy : Bool) : State :=
  let r := at9 (fe1 ++ w3)
  { ((postU presence busy).fetched .x r).fetched .y (fun k => r (9 + k)) with
    xOut := fetchValue r, yOut := fetchValue (fun k => r (9 + k)) }

/-- The premises, for every answer of the last busy query and with and without a presence line. -/
theorem witness_PostcheckDecidesResult (presence busy : Bool) :
    (postcheck presence busy).Running ∧ (postcheck presence busy).busyAnswer 0 = false ∧
      (postcheck presence busy).params.pointPostcheck = true ∧
      touchQuery (postcheck presence busy).queried = .done true (postU presence busy) ∧
      (postU presence busy).Receives 18 (at9 (fe1 ++ w3)) ∧ (postV presence busy).busyAnswer 0 = busy ∧
      (postcheck presence busy).params.hasPresence = presence ∧
      (presence = false → (postV presence busy).Receives 9 (at9 z9)) := by
  have hs : (postcheck presence busy).queried.seq = .idle := rfl
  have hb : (postcheck presence busy).queried.busyAnswer 0 = false := by cases presence <;> cases busy <;> decide
  refine ⟨⟨⟨rfl, rfl⟩, rfl⟩, by cases presence <;> cases busy <;> decide, rfl, ?_, ?_, ?_, rfl, ?_⟩
  · cases presence with
    | true => rw [touchQuery_presence hb rfl]; cases busy <;> rfl
    | false =>
      have hr : (postcheck false busy).queried.Receives 9 (at9 z10) := by
        unfold State.Receives
        cases busy <;> decide
      rw [touchQuery_pressure hs hb rfl hr]
      have : pressureTouched (postcheck false busy).queried.params (fetchValue (at9 z10)) = true := by
        cases busy <;> decide
      rw [this]
      rfl
  · unfold State.Receives
    cases presence <;> cases busy <;> decide
  · cases presence <;> cases busy <;> decide
  · rintro rfl
    unfold State.Receives
    cases busy <;> decide

/-- A touched block with POINT_POSTCHECK and without a presence line, whose last Z1 fetch hangs at its exchange n. -/
def postcheckHang (n : Nat) : State :=
  ready { params .hard false with pointPostcheck := true }
    (hardEnv ((z10 ++ fe1 ++ w3 ++ z9.take n).map some ++ [none]) [false, false, false] [])

/-- The state the touch check of `postcheckHang` leaves. -/
def postcheckHangU (n : Nat) : State := (postcheckHang n).queried.queried.fetched .z1 (at9 z10)

/-- The state its fetches and outputs leave. -/
def postcheckHangV (n : Nat) : State :=
  let r := at9 (fe1 ++ w3)
  { ((postcheckHangU n).fetched .x r).fetched .y (fun k => r (9 + k)) with
    xOut := fetchValue r, yOut := fetchValue (fun k => r (9 + k)) }

/-- At the first exchange of the last Z1 fetch and at its last. -/
theorem witness_PostcheckHangs :
    ∀ n ∈ [0, 8], (postcheckHang n).Running ∧ (postcheckHang n).busyAnswer 0 = false ∧
      (postcheckHang n).params.pointPostcheck = true ∧ (postcheckHang n).params.hasPresence = false ∧
      touchQuery (postcheckHang n).queried = .done true (postcheckHangU n) ∧
      (postcheckHangU n).Receives 18 (at9 (fe1 ++ w3)) ∧ (postcheckHangV n).busyAnswer 0 = false ∧ n < 9 ∧
      (postcheckHangV n).Receives n (at9 z9) ∧ (postcheckHangV n).rxByte n = none := by
  have hq : ∀ n ∈ [0, 8], touchQuery (postcheckHang n).queried = .done true (postcheckHangU n) := by
    intro n hn
    have hb : (postcheckHang n).queried.busyAnswer 0 = false := by revert n; decide
    have hr : (postcheckHang n).queried.Receives 9 (at9 z10) := by
      unfold State.Receives
      revert n
      decide
    have ht : pressureTouched (postcheckHang n).queried.params (fetchValue (at9 z10)) = true := by
      clear hb hr
      revert n
      decide
    rw [touchQuery_pressure rfl hb rfl hr, ht]
    rfl
  refine fun n hn => ⟨⟨⟨rfl, rfl⟩, rfl⟩, ?_, rfl, rfl, hq n hn, ?_, ?_, ?_, ?_, ?_⟩ <;> clear hq <;>
    (try unfold State.Receives) <;> revert n <;> decide

theorem witness_OutputsWrittenOnlyOnSuccess :
    (hard true (fe1.map some ++ [none]) [false, false] [false]).Running ∧
      (hard true (fe1.map some ++ [none]) [false, false] [false]).params.pointPostcheck = false ∧
      ∃ t, exec .getRawPoint (hard true (fe1.map some ++ [none]) [false, false] [false]) = .next t :=
  ⟨⟨⟨rfl, rfl⟩, rfl⟩, rfl, _, rfl⟩

theorem witness_FetchCompletes :
    ((soft true fe1 []).Running ∧ (soft true fe1 []).Receives 9 (at9 fe1)) ∧
      (hard true (fe5.map some) [] []).Running ∧ (hard true (fe5.map some) [] []).Receives 9 (at9 fe5) := by
  simp only [State.Running, State.Ready, State.Receives]
  decide

theorem witness_FetchIsOneFrame :
    (hard true (fe5.map some) [] []).Running ∧
      ∃ t, exec (.fetch .z2) (hard true (fe5.map some) [] []) = .next t ∧ t.Completed :=
  ⟨⟨⟨rfl, rfl⟩, rfl⟩, _, rfl, by unfold State.Completed; decide⟩

/-- At the first exchange and at the last. -/
theorem witness_FetchHangs :
    ((hard true [none] [] []).Running ∧ (hard true [none] [] []).Receives 0 (at9 []) ∧
        (hard true [none] [] []).rxByte 0 = none) ∧
      (hard true ((fe1.take 8).map some ++ [none]) [] []).Running ∧
      (hard true ((fe1.take 8).map some ++ [none]) [] []).Receives 8 (at9 fe1) ∧
      (hard true ((fe1.take 8).map some ++ [none]) [] []).rxByte 8 = none := by
  simp only [State.Running, State.Ready, State.Receives]
  decide

theorem witness_OperationFrame :
    (∃ t, exec .isTouched (hard true [] [false] [false]) = .next t) ∧
      (hard true [] [false] [false]).params.mode = .hard ∧
      (hard true [] [false] [false]).params.hasPresence = true ∧
      (∃ t, exec .isBusy (soft true [] []) = .next t) ∧ (soft true [] []).params.mode = .soft :=
  ⟨⟨_, rfl⟩, rfl, rfl, ⟨_, rfl⟩, rfl⟩

theorem witness_TraceOnlyGrows :
    (∃ t, step { soft true [] [] with requests := [0x1000] } = .next t) ∧ (soft true [] []).resetLine = false :=
  ⟨⟨_, rfl⟩, rfl⟩

theorem witness_NoOperationReadsTrace : ∃ t, exec (.fetch .y) (soft true fe1 []) = .next t := ⟨_, rfl⟩

theorem witness_NoOperationReadsResults : ∃ t, exec .getRawPoint (soft true (fe1 ++ w3) [false]) = .next t := ⟨_, rfl⟩

theorem witness_SoftXferBitFrame : (soft true [0x7F] []).params.mode = .soft := rfl

theorem witness_HardXferDelegates :
    (hard true [some 0] [] []).params.mode = .hard ∧ (hard true [some 0] [] []).exchangeAt 0 = some 0 ∧
      (hard true [none] [] []).exchangeAt 0 = none := by decide

theorem witness_XferReceivesIndependently :
    ((0x12A5#16).setWidth 8 = (0x00A5#16).setWidth 8) ∧ (∃ v t, xfer 0x12A5 (soft true [0x7F] []) = .done v t) ∧
      ∃ t, xfer 0x12A5 (hard true [none] [] []) = .hung t :=
  ⟨by decide, ⟨_, _, rfl⟩, ⟨_, rfl⟩⟩

theorem witness_ScopeOpensAndCloses :
    (soft true [] []).params.mode = .soft ∧ (hard true [] [] []).params.mode = .hard := ⟨rfl, rfl⟩

theorem witness_SampleAssembly :
    (hard true [some 0, some 0xAB, some 0xCD] [] []).rxByte 0 = some 0 ∧
      (hard true [some 0, some 0xAB, some 0xCD] [] []).rxByte 1 = some 0xAB ∧
      (hard true [some 0, some 0xAB, some 0xCD] [] []).rxByte 2 = some 0xCD := by decide

/-- One triple of each case, the tie between the outer distances among them. -/
theorem witness_FilterClosedForm :
    ((100#16).toNat ≤ 4095 ∧ (102#16).toNat ≤ 4095 ∧ (500#16).toNat ≤ 4095 ∧
        (2 : Int) = |((100#16).toNat : Int) - (102#16).toNat| ∧ (400 : Int) = |((100#16).toNat : Int) - (500#16).toNat| ∧
        (398 : Int) = |((102#16).toNat : Int) - (500#16).toNat|) ∧
      ((10 : Int) = |((0#16).toNat : Int) - (10#16).toNat| ∧ (5 : Int) = |((0#16).toNat : Int) - (5#16).toNat| ∧
        (5 : Int) = |((10#16).toNat : Int) - (5#16).toNat|) ∧
      ((4095#16).toNat ≤ 4095 ∧ (4095 : Int) = |((0#16).toNat : Int) - (4095#16).toNat| ∧
        (0 : Int) = |((4095#16).toNat : Int) - (4095#16).toNat|) := by decide

theorem witness_FilterProperties :
    ((4095#16).toNat ≤ 4095 ∧ (0#16).toNat ≤ 4095) ∧ (distance 0 10 > distance 0 5 ∧ distance 0 5 = distance 10 5) ∧
      ¬(distance 9 8 > distance 9 9 ∧ distance 9 9 = distance 8 9) := by decide

theorem witness_StepKeepsInvariant :
    (hard true [] [] []).Inv ∧ ∃ t, step { hard true [] [] [] with requests := [0x1000] } = .next t :=
  ⟨hard_inv, _, rfl⟩

theorem witness_StepKeepsScopeDiscipline :
    (hard true [] [] []).Inv ∧ (hard true [] [] []).ScopesOk ∧ ∃ t, step (hard true [] [] []) = .next t :=
  ⟨hard_inv, by unfold State.ScopesOk; decide, _, rfl⟩

theorem witness_LinesBetweenOperations :
    (soft true [] []).Inv ∧ ∃ t, exec .isBusy (soft true [] []) = .next t ∧ t.Completed :=
  ⟨soft_inv, _, rfl, by unfold State.Completed; decide⟩

theorem witness_StepKeepsPrimingFirst :
    (hard true [] [] []).Inv ∧ (hard true [] [] []).PrimesFirst ∧ ∃ t, step (hard true [] [] []) = .next t := by
  refine ⟨hard_inv, ⟨?_, ?_⟩, _, rfl⟩
  · intro before b after h
    have : Event.pres b ∈ (hard true [] [] []).trace := by rw [h]; simp
    simp [hard, ready, params, fetchEvents, selectEvents, releaseEvents, fetchXfers, xferEvents] at this
  · intro _ _
    decide

end Sys2Proof.Tests
end

/-! ### The family of 30_encoding.md: the sample of a read cycle, and FETCH as one frame -/

section
namespace Sys2Proof.Machine

/-! #### Sample assembly (R62) -/

/-- The two shifted bytes of a sample share no bit: one has none below bit 4, the other none from bit 4 on. -/
theorem assembleSample_parts_disjoint (hi lo : Byte) :
    (hi.setWidth 16 <<< 4) &&& (lo.setWidth 16 >>> 4) = 0#16 := by
  ext i hi'
  by_cases h : i < 4
  · simp [h]
  · have hlo : lo.getLsbD (4 + i) = false := BitVec.getLsbD_of_ge lo (4 + i) (by omega)
    simp [hlo]

theorem assembleSample_highByte (hi lo : Byte) : (assembleSample hi lo).extractLsb' 4 8 = hi := by
  apply BitVec.eq_of_toNat_eq
  rw [BitVec.extractLsb'_toNat, Nat.shiftRight_eq_div_pow, assembleSample_toNat]
  omega

theorem assembleSample_lowNibble (hi lo : Byte) :
    (assembleSample hi lo).extractLsb' 0 4 = lo.extractLsb' 4 4 := by
  apply BitVec.eq_of_toNat_eq
  rw [BitVec.extractLsb'_toNat, BitVec.extractLsb'_toNat, Nat.shiftRight_eq_div_pow,
    Nat.shiftRight_eq_div_pow, assembleSample_toNat]
  omega

theorem assembleSample_topNibble (hi lo : Byte) : (assembleSample hi lo).extractLsb' 12 4 = 0 := by
  have hlt := assembleSample_lt hi lo
  apply BitVec.eq_of_toNat_eq
  rw [BitVec.extractLsb'_toNat, Nat.shiftRight_eq_div_pow]
  rw [Nat.div_eq_of_lt hlt]
  rfl

/-- READ_CYCLE whose three exchanges return (R61, R98): the sample is made of the second and third byte. -/
theorem readCycle_done (ch : Channel) {s : State} {rx0 hi lo : Byte} (h0 : s.rxByte 0 = some rx0)
    (h1 : s.rxByte 1 = some hi) (h2 : s.rxByte 2 = some lo) :
    readCycle ch s = .done (assembleSample hi lo)
      (((s.advance.xferred (command s.params ch) rx0).advance.xferred s.params.dummy hi).advance.xferred
        s.params.dummy lo) := by
  simp [readCycle, xfer_eq, State.rxByte_xferred, h0, h1, h2]

/-- Settles O46: the bit places follow from the sample's value 16 * hi + lo / 16, and a read cycle that returns drops
its first byte. -/
theorem sampleAssembly : Obligations.SampleAssembly := by
  unfold Obligations.SampleAssembly
  refine ⟨fun hi lo => ?_, fun ch s rx0 hi lo h0 h1 h2 => ⟨_, readCycle_done ch h0 h1 h2⟩⟩
  exact ⟨rfl, assembleSample_parts_disjoint hi lo, assembleSample_highByte hi lo, assembleSample_lowNibble hi lo,
    assembleSample_topNibble hi lo, Nat.le_of_lt_succ (assembleSample_lt hi lo)⟩

/-! #### The operation-level TRACE of a fetch (R27, R63) -/

/-- The pin events of an XFER are below the operation level, in either mode. -/
theorem opLevel_xferEvents (m : Mode) (b r : Byte) : (xferEvents m b r).filter Event.isOpLevel = [.xfer b r] := by
  cases m with
  | soft => simp [xferEvents, softFrame, bitFrame, Event.isOpLevel]
  | hard => simp [xferEvents, Event.isOpLevel]

/-- At the operation level n transfers of a fetch are n XFER events. -/
theorem opLevel_fetchXfers (m : Mode) (cmd dummy : Byte) (r : Nat → Byte) (n : Nat) :
    (fetchXfers m cmd dummy r n).filter Event.isOpLevel =
      (List.range n).map fun k => .xfer (fetchSends cmd dummy k) (r k) := by
  induction n with
  | zero => simp [fetchXfers]
  | succ n ih => rw [fetchXfers_succ, List.filter_append, ih, opLevel_xferEvents, List.range_succ, List.map_append]; rfl

theorem opLevel_selectEvents (m : Mode) : (selectEvents m).filter Event.isOpLevel = selectEvents m := by
  cases m <;> rfl

theorem opLevel_releaseEvents (m : Mode) : (releaseEvents m).filter Event.isOpLevel = releaseEvents m := by
  cases m <;> rfl

/-- A fetch adds one frame to the operation-level TRACE: SELECT, nine XFERs, RELEASE. -/
theorem State.opTrace_fetched (s : State) (ch : Channel) (r : Nat → Byte) :
    (s.fetched ch r).opTrace = s.opTrace ++ selectEvents s.params.mode ++
      ((List.range 9).map fun k => .xfer (fetchSends (command s.params ch) s.params.dummy k) (r k)) ++
      releaseEvents s.params.mode := by
  simp only [State.opTrace, State.fetched, fetchEvents, List.filter_append, opLevel_selectEvents, opLevel_fetchXfers,
    opLevel_releaseEvents, List.append_assoc]

/-- A FETCH that completes leaves the fetched state, with the filtered value in `RES` (R95). -/
theorem exec_fetch_completed {ch : Channel} {s t : State} (hs : s.Running) (h : exec (.fetch ch) s = .next t)
    (ht : t.Completed) : ∃ r, s.Receives 9 r ∧ t = (s.fetched ch r).complete (fetchValue r) := by
  have hidle : s.seq = .idle := hs.1.1
  rw [exec_running hs (by simp), bodyOf, Host.Outcome.next.injEq] at h
  obtain ⟨r, hr, he⟩ | ⟨n, r, -, -, -, -, he⟩ := fetchSeq_cases ch hidle
  · exact ⟨r, hr, by rw [← h, he, Micro.settle_done]⟩
  · rw [he, Micro.settle_hung] at h
    have hseq := ht.1
    rw [← h] at hseq
    simp [State.hungFetch] at hseq

theorem selectEvents_eq_ite (m : Mode) :
    selectEvents m = if m = .hard then [.periphOpen, .cs false] else [.cs false] := by
  cases m <;> rfl

theorem releaseEvents_eq_ite (m : Mode) :
    releaseEvents m = if m = .hard then [.cs true, .periphClose] else [.cs true] := by
  cases m <;> rfl

/-- Settles O36: the completed state is the fetched one, whose new operation-level events are one frame and whose value
is the filter of the three samples. -/
theorem fetchIsOneFrame : Obligations.FetchIsOneFrame := by
  unfold Obligations.FetchIsOneFrame
  intro s t ch hs h ht
  obtain ⟨r, -, rfl⟩ := exec_fetch_completed hs h ht
  refine ⟨r, ?_, rfl⟩
  -- the nine transfers of `opTrace_fetched` evaluate to the list the statement writes out
  have hframe := s.opTrace_fetched ch r
  rw [selectEvents_eq_ite, releaseEvents_eq_ite] at hframe
  exact hframe

end Sys2Proof.Machine
end

/-! ### The family of 40_transport.md: XFER in SOFT mode, SELECT and RELEASE -/

section
namespace Sys2Proof.Machine

/-! #### XFER in SOFT mode (R68, R70) -/

theorem byteOfSamples_getLsbD (f : Nat → Bool) {i : Nat} (hi : i < 8) :
    (byteOfSamples f).getLsbD (7 - i) = f i := by
  obtain ⟨h7, h6, h5, h4, h3, h2, h1, h0⟩ := byteOfSamples_bits f
  interval_cases i <;> assumption

theorem State.rxByte_zero_soft {s : State} (h : s.params.mode = .soft) : s.rxByte 0 = some (byteOfSamples s.misoAt) := by
  simp [State.rxByte, h]

/-- The state a SOFT XFER leaves, with the lines and the events in terms of the transport word (R68, R70). -/
theorem State.xferred_soft {s : State} (h : s.params.mode = .soft) (tx : Word) (r : Byte) :
    s.xferred (lowByte tx) r = { s.afterMiso 8 with
      sck := .low
      mosi := if tx.getLsbD 0 then .high else .low
      trace := s.trace ++
        [7, 6, 5, 4, 3, 2, 1, 0].flatMap
          (fun i => [.sck false, .mosi (tx.getLsbD i), .miso (r.getLsbD i), .sck true]) ++
        [.sck false, .xfer (tx.setWidth 8) r] } := by
  simp [State.xferred, State.afterXfers, h, xferEvents, softFrame, bitFrame, Level.ofBit, lowByte]

/-- Settles O42: the byte received is the byte of the next eight samples, and XFER's closed form gives the rest. -/
theorem softXferBitFrame : Obligations.SoftXferBitFrame := by
  unfold Obligations.SoftXferBitFrame
  intro tx s hm
  refine ⟨byteOfSamples s.misoAt, fun i hi => byteOfSamples_getLsbD s.misoAt hi, ?_⟩
  rw [xfer_done (State.rxByte_zero_soft hm), State.xferred_soft hm]
  rfl

/-! #### SELECT and RELEASE (R73, R74) -/

/-- Settles O45: the closed forms of SELECT and RELEASE, at each mode. -/
theorem scopeOpensAndCloses : Obligations.ScopeOpensAndCloses := by
  unfold Obligations.ScopeOpensAndCloses
  intro s
  refine ⟨fun hm => ⟨?_, ?_⟩, fun hm => ⟨?_, ?_⟩⟩
  · simp [select_eq, hm, selectEvents]
  · simp [release_eq, hm, releaseEvents]
  · simp [select_eq, hm, selectEvents]
  · simp [release_eq, hm, releaseEvents]

end Sys2Proof.Machine
end

/-! ### The family of 70_reset_and_hazards.md: INIT comes first, and once -/

section
namespace Sys2Proof.Machine

/-- The word of INIT (R55). -/
theorem encode_init : encode .init = 0x0000 := by decide

/-- Settles O13: either way the check on INIT fails, and a failed check on a ready block raises its fault and changes
nothing else (`exec_raise`). -/
theorem initMustComeFirstAndOnce : Obligations.InitMustComeFirstAndOnce := by
  unfold Obligations.InitMustComeFirstAndOnce
  intro s hs
  constructor
  · intro i hi hd
    exact exec_raise hs (s.initCheck_notInit hd hi)
  · intro hd
    rw [← encode_init]
    exact exec_raise hs (s.initCheck_reinit hd)

end Sys2Proof.Machine
end

/-! ### The family of 30_encoding.md, continued: decode and encode agree, and the assembler reads every line -/

section
namespace Sys2Proof

/-! #### Decode and encode (R51 to R55) -/

theorem encodedFields (i : Instr) : Laws.EncodedFields.Statement i := by
  cases i with
  | init => exact Laws.EncodedFields.init
  | isBusy => exact Laws.EncodedFields.isBusy
  | isTouched => exact Laws.EncodedFields.isTouched
  | getRawPoint => exact Laws.EncodedFields.getRawPoint
  | fetch ch => exact Laws.EncodedFields.fetch ch

theorem fields_instr (i : Instr) : i.fields.instr = i := by
  cases i with
  | fetch ch => cases ch <;> decide
  | _ => decide

@[simp] theorem decode_encode (i : Instr) : decode (encode i) = .ok i := by
  obtain ⟨hof, -, hlegal, -⟩ := encodedFields i
  simp [decode, hof, hlegal, fields_instr]

/-- A word that decodes to an operation is that operation's word: its fields are the operation's, and a word is its
fields. -/
theorem eq_encode_of_decode {w : Word} {i : Instr} (h : decode w = .ok i) : w = encode i := by
  unfold decode at h
  split at h
  case h_1 => cases h
  case h_2 hlegal =>
    obtain rfl : (Opw.ofWord w).instr = i := by simpa using h
    rw [encode, instr_fields hlegal, toWord_ofWord]

/-- Settles O2: one direction is `decode_encode`, the other `eq_encode_of_decode`. -/
theorem decodeInvertsEncode : Obligations.DecodeInvertsEncode := by
  unfold Obligations.DecodeInvertsEncode
  intro w i
  constructor
  · exact eq_encode_of_decode
  · rintro rfl
    exact decode_encode i

/-- Settles O1: the eight legal words are the words of the operations; the four illegal ones are evaluated. -/
theorem legalWordsDecode : Obligations.LegalWordsDecode := by
  unfold Obligations.LegalWordsDecode
  refine ⟨decode_encode .init, decode_encode .isBusy, decode_encode .isTouched, decode_encode .getRawPoint,
    decode_encode (.fetch .x), decode_encode (.fetch .y), decode_encode (.fetch .z1), decode_encode (.fetch .z2), ?_⟩
  decide

/-! #### The words as numbers (R54) -/

/-- The word of FETCH of the channel a `CH` field names. -/
theorem encode_fetch_toNat (c : BitVec 2) : (encode (.fetch (.ofCode c))).toNat = 16384 + 256 * c.toNat := by
  revert c
  decide

/-- The `CH` field of a channel as a number (R53). -/
theorem code_toNat_ofCode (c : BitVec 2) :
    c.toNat = match Channel.ofCode c with | .x => 0 | .y => 1 | .z1 => 2 | .z2 => 3 := by
  revert c
  decide

/-- The words of the four operations without operands. -/
theorem encode_nullary_toNat :
    ∀ n, ∀ h : n < 4, (encode ([Instr.init, .isBusy, .isTouched, .getRawPoint][n]'h)).toNat = 4096 * n := by
  decide

/-- The word of every operation meets one of the two legal cases of R54. -/
theorem encode_legal_cases (i : Instr) :
    ((encode i).toNat / 4096 = 4 ∧ (encode i).toNat / 1024 % 4 = 0 ∧ (encode i).toNat % 256 = 0) ∨
      ((encode i).toNat / 4096 < 4 ∧ (encode i).toNat % 4096 = 0) := by
  cases i with
  | fetch ch => cases ch <;> decide
  | _ => decide

/-- A word that meets neither legal case of R54 is ILLEGAL. -/
theorem decode_illegal {w : Word} (hfetch : ¬(w.toNat / 4096 = 4 ∧ w.toNat / 1024 % 4 = 0 ∧ w.toNat % 256 = 0))
    (hother : ¬(w.toNat / 4096 < 4 ∧ w.toNat % 4096 = 0)) : ∃ reason, decode w = .error reason := by
  cases hd : decode w with
  | error reason => exact ⟨reason, rfl⟩
  | ok i =>
    obtain rfl := eq_encode_of_decode hd
    exact absurd (encode_legal_cases i) (not_or.2 ⟨hfetch, hother⟩)

/-! #### Assembler lines (R55) -/

theorem Asm.code_eq_self {line : List Char} (h : ∀ c ∈ line, c ≠ ';') : Asm.code line = line :=
  List.takeWhile_eq_self_iff.2 (by simpa using h)

/-- A comment after a line that holds none is not read. -/
theorem Asm.code_append_comment {line : List Char} (h : ∀ c ∈ line, c ≠ ';') (comment : List Char) :
    Asm.code (line ++ ';' :: comment) = line := by
  rw [Asm.code, List.takeWhile_append_of_pos (by simpa using h), List.takeWhile_cons_of_neg (by simp),
    List.append_nil]

theorem Instr.text_noComment (i : Instr) : ∀ c ∈ i.text, c ≠ ';' := by
  cases i with
  | fetch ch => cases ch <;> simp [Instr.text, Instr.tokens, Instr.mnemonic, Channel.text]
  | _ => simp [Instr.text, Instr.tokens, Instr.mnemonic]

theorem Asm.words_text (i : Instr) : Asm.words [] i.text = i.tokens := by
  cases i with
  | fetch ch => cases ch <;> decide
  | _ => decide

/-- No two operations have the same words. -/
theorem Instr.find_tokens (i : Instr) : Instr.all.find? (·.tokens = i.tokens) = some i := by
  cases i with
  | fetch ch => cases ch <;> decide
  | _ => decide

theorem Instr.tokens_ne_nil (i : Instr) : i.tokens ≠ [] := by
  cases i <;> simp [Instr.tokens]

/-- A line whose code is an operation's line is read as that operation. -/
theorem Asm.line_of_code {line : List Char} {i : Instr} (h : Asm.code line = i.text) :
    Asm.line line = some (some i) := by
  simp only [Asm.line, h, Asm.words_text, if_neg i.tokens_ne_nil, i.find_tokens, Option.map_some]

/-- Settles O4: with and without a comment, the code of the line is the operation's. -/
theorem assemblerReadsEveryOperation : Obligations.AssemblerReadsEveryOperation := by
  unfold Obligations.AssemblerReadsEveryOperation
  intro i comment
  exact ⟨Asm.line_of_code (Asm.code_eq_self i.text_noComment),
    Asm.line_of_code (Asm.code_append_comment i.text_noComment comment)⟩

end Sys2Proof
end

/-! ### Steps and requests -/

section
namespace Sys2Proof.Machine

variable {s : State} {w : Word} {rest : List Word}

theorem step_reset (h : s.resetLine = true) : step s = .next s.applyReset := by
  simp [step, h]

theorem step_blocked {r : Fault} (hreset : s.resetLine = false) (h : s.blocked = some r) : step s = .fault r := by
  simp [step, hreset, h]

/-- A ready block without a request idles (R129). -/
theorem step_idle (hreset : s.resetLine = false) (hs : s.Ready) (hq : s.requests = []) : step s = .next s := by
  simp [step, hreset, hs.blocked, takeRequest_nil hq]

/-- A legal request is performed as its operation, whether the block is blocked or not. -/
theorem step_decoded {i : Instr} (hreset : s.resetLine = false) (hq : s.requests = w :: rest)
    (hd : decode w = .ok i) : step s = exec i (s.setRequests rest) := by
  cases hb : s.blocked with
  | some r => rw [step_blocked hreset hb, exec_blocked (by simpa using hb)]
  | none => simp [step_request hreset (s.blocked_eq_none_iff.1 hb) hq, hd]

/-- An ILLEGAL request of a ready block raises F_ILLEGAL. -/
theorem step_illegal {reason : Illegal} (hreset : s.resetLine = false) (hs : s.Ready) (hq : s.requests = w :: rest)
    (hd : decode w = .error reason) : step s = .next ((s.setRequests rest).raise .illegal w) := by
  rw [step_request hreset hs hq, hd]
  exact performIllegal_ready (s := s.setRequests rest) hs w

/-- A legal request of a ready block whose check on INIT fails raises that check's fault. -/
theorem step_checkFails {i : Instr} {c : FaultCode} (hreset : s.resetLine = false) (hs : s.Ready)
    (hq : s.requests = w :: rest) (hd : decode w = .ok i) (hc : s.initCheck i = some c) :
    step s = .next ((s.setRequests rest).raise c w) := by
  rw [step_decoded hreset hq hd, eq_encode_of_decode hd]
  exact exec_raise (s := s.setRequests rest) hs (by simpa [State.initCheck] using hc)

/-- Settles O3: a legal word is found by its number among the encoded ones, and any other word is ILLEGAL. -/
theorem decodeFollowsTheFields : Obligations.DecodeFollowsTheFields := by
  unfold Obligations.DecodeFollowsTheFields
  intro w
  refine ⟨fun hop hrsv1 hrsv0 => ?_, fun hop hrest => ?_, fun hfetch hother => ?_⟩
  · obtain ⟨-, -, hch, -⟩ := ofWord_toNat w
    refine ⟨.ofCode (Opw.ofWord w).ch, ?_, hch ▸ code_toNat_ofCode (Opw.ofWord w).ch⟩
    have hw : w = encode (.fetch (.ofCode (Opw.ofWord w).ch)) := by
      apply BitVec.eq_of_toNat_eq
      rw [encode_fetch_toNat]
      omega
    exact (decodeInvertsEncode w _).2 hw
  · refine (decodeInvertsEncode w _).2 (BitVec.eq_of_toNat_eq ?_)
    rw [encode_nullary_toNat]
    omega
  · obtain ⟨reason, hd⟩ := decode_illegal hfetch hother
    exact ⟨⟨reason, hd⟩, fun s rest hs hreset hq => step_illegal hreset hs hq hd⟩

/-- Settles O5. -/
theorem stepRunsDecodedRequest : Obligations.StepRunsDecodedRequest := by
  unfold Obligations.StepRunsDecodedRequest
  intro s w rest i hreset hq hd
  exact step_decoded hreset hq hd

/-- Settles O6: the word stored is the operation's, which decodes to it. -/
theorem stepRunsStoredWord : Obligations.StepRunsStoredWord := by
  unfold Obligations.StepRunsStoredWord
  intro s i
  have hword : BitVec.ofNat 16 ((encode i).toNat % 2 ^ 16) = encode i := by
    rw [Nat.mod_eq_of_lt (encode i).isLt, BitVec.ofNat_toNat, BitVec.setWidth_eq]
  refine step_decoded (s := s.withFetchWord 16 (encode i).toNat) rfl rfl ?_
  rw [hword, decode_encode]

/-- Settles O7: one clause per check, in their order. -/
theorem checksRunInOrder : Obligations.ChecksRunInOrder := by
  unfold Obligations.ChecksRunInOrder
  intro s w rest hseq hreset hq
  refine ⟨fun hf => step_blocked hreset (s.blocked_faulted hseq hf),
    fun hf reason hd => step_illegal hreset ⟨hseq, hf⟩ hq hd,
    fun hf i hd hi hdone => step_checkFails hreset ⟨hseq, hf⟩ hq hd (s.initCheck_notInit hdone hi),
    fun hf hd hdone => step_checkFails hreset ⟨hseq, hf⟩ hq hd (s.initCheck_reinit hdone)⟩

/-- Settles O8. -/
theorem noRequestNoChange : Obligations.NoRequestNoChange := by
  unfold Obligations.NoRequestNoChange
  intro s hs hreset hq
  exact step_idle hreset hs hq

/-- Settles O10: each element of the reset state is written out in its definition. -/
theorem powerOnState : Obligations.PowerOnState := by
  unfold Obligations.PowerOnState
  simp [State.reset, State.resetWith]

/-- Settles O11: a recorded fault blocks every operation and every step. -/
theorem faultedBlockTakesNoStep : Obligations.FaultedBlockTakesNoStep := by
  unfold Obligations.FaultedBlockTakesNoStep
  intro s hf hseq
  have hb := s.blocked_faulted hseq hf
  exact ⟨exec_blocked hb, fun hreset => step_blocked hreset hb⟩

/-- Settles O12: the invariant says where a stuck block rests, and being stuck blocks it. -/
theorem stuckBlockTakesNoStep : Obligations.StuckBlockTakesNoStep := by
  unfold Obligations.StuckBlockTakesNoStep
  intro s hinv hstuck
  obtain ⟨-, -, hcs, hopen, hfault, -⟩ := hinv.stuck hstuck
  have hb := State.Stuck.blocked hstuck
  exact ⟨hcs, hopen, hfault, exec_blocked hb, fun hreset => step_blocked hreset hb⟩

end Sys2Proof.Machine
end

/-! ### What an operation that answers a next state did -/

section
namespace Sys2Proof.Machine

variable {i : Instr} {s t : State}

/-- A ready block answers a next state to every operation. -/
theorem exec_ready (hs : s.Ready) (i : Instr) : ∃ t, exec i s = .next t := by
  cases hc : s.initCheck i with
  | some c => exact ⟨_, exec_raise hs hc⟩
  | none => exact ⟨_, exec_body hs hc⟩

/-- How operation i of a ready block s ended, in the next state (R109): its check on INIT failed; its body ran along
`Ran` and returned; or its body is stuck in a fetch. -/
inductive Ended (i : Instr) (s : State) : State → Prop where
  | raised (c : FaultCode) (hc : s.initCheck i = some c) : Ended i s (s.raise c (encode i))
  | completed (v : Word) (u : State) (hc : s.initCheck i = none) (hbody : bodyOf i s = .done v u)
      (hu : Ran (startOf i s) u) (hv : v.toNat < 4096) : Ended i s (u.complete v)
  | hung (u : State) (ch : Channel) (r : Nat → Byte) (n : Nat) (hc : s.initCheck i = none) (hu : Ran (startOf i s) u)
      (hm : s.params.mode = .hard) (hn : n < 9) : Ended i s (u.hungFetch ch r n)

/-- Everything an operation can do when it answers a next state. -/
theorem exec_ended (h : exec i s = .next t) : s.Ready ∧ Ended i s t := by
  obtain ⟨hs, ⟨c, hc, rfl⟩ | ⟨hc, rfl⟩⟩ := exec_cases h
  · exact ⟨hs, .raised c hc⟩
  · obtain ⟨v, u, hbody, he, hu, hv⟩ | ⟨u, ch, r, n, -, he, hu, hm, hn⟩ := settle_cases i hs.1 <;> rw [he]
    · exact ⟨hs, .completed v u hc hbody hu hv⟩
    · rw [hu.params, startOf_params] at hm
      exact ⟨hs, .hung u ch r n hc hu hm hn⟩

/-- A body leaves no fault where none was. -/
theorem Ran.noFault (h : Ran (startOf i s) t) (hs : s.Ready) : t.fault = none := by
  rw [h.fault, startOf_fault, hs.2]

theorem Ran.idle (h : Ran (startOf i s) t) (hs : s.Ready) : t.seq = .idle := by
  rw [h.seq, startOf_seq, hs.1]

theorem State.hungFetch_stuck (s : State) (ch : Channel) (r : Nat → Byte) (n : Nat) : (s.hungFetch ch r n).Stuck := by
  intro h
  cases h

/-- A body runs with `INIT_DONE` set: INIT sets it, and the others run after INIT only. -/
theorem startOf_initDone (hc : s.initCheck i = none) : (startOf i s).initDone = true := by
  obtain ⟨rfl, -⟩ | ⟨hi, hd⟩ := initCheck_pass hc
  · rfl
  · rw [startOf_eq_self hi, hd]

/-- An operation leaves `INIT_DONE` set where it was. -/
theorem exec_keeps_initDone (h : exec i s = .next t) (hd : s.initDone = true) : t.initDone = true := by
  obtain ⟨-, hend⟩ := exec_ended h
  cases hend with
  | raised c hc => exact hd
  | completed v u hc hbody hu hv => rw [State.complete_initDone, hu.initDone, startOf_initDone hc]
  | hung u ch r n hc hu hm hn => rw [State.hungFetch_initDone, hu.initDone, startOf_initDone hc]

/-- An operation that records a fault has done nothing else (R114). -/
theorem exec_faulted (h : exec i s = .next t) (ht : t.Faulted) : ∃ c, t = s.raise c (encode i) := by
  obtain ⟨hs, hend⟩ := exec_ended h
  cases hend with
  | raised c hc => exact ⟨c, rfl⟩
  | completed v u hc hbody hu hv => exact absurd (hu.noFault hs) ht
  | hung u ch r n hc hu hm hn => exact absurd ((State.hungFetch_fault u ch r n).trans (hu.noFault hs)) ht

/-! #### The values returned (R58, R82) -/

/-- What a body that starts in s may return: 0 from INIT, a Boolean from the queries, the filtered value from FETCH. -/
def ResultOk (s : State) : Instr → Word → Prop
  | .init, v => v = 0
  | .isBusy, v => v = 0 ∨ v = 1
  | .isTouched, v => v = 0 ∨ v = 1
  | .getRawPoint, v => v = 0 ∨ v = 1
  | .fetch _, v => ∃ r, s.Receives 9 r ∧ v = fetchValue r

theorem boolResult_zero_or_one (b : Bool) : boolResult b = 0 ∨ boolResult b = 1 := by
  cases b
  · exact .inl rfl
  · exact .inr rfl

theorem Micro.bind_eq_done {α β : Type} {m : Micro α} {f : α → State → Micro β} {b : β}
    (h : m.bind f = .done b t) : ∃ a u, m = .done a u ∧ f a u = .done b t := by
  cases m with
  | done a u => exact ⟨a, u, rfl, h⟩
  | hung u => cases h

theorem body_result {v : Word} (hs : s.seq = .idle) (h : bodyOf i s = .done v t) : ResultOk s i v := by
  cases i with
  | init =>
    obtain ⟨_, u, -, h⟩ := Micro.bind_eq_done h
    cases h
    rfl
  | isBusy =>
    cases h
    exact boolResult_zero_or_one _
  | isTouched =>
    obtain ⟨b, u, -, h⟩ := Micro.bind_eq_done h
    cases h
    exact boolResult_zero_or_one b
  | getRawPoint =>
    obtain ⟨b, u, -, h⟩ := Micro.bind_eq_done h
    cases h
    exact boolResult_zero_or_one b
  | fetch ch =>
    obtain ⟨r, hr, hv, -⟩ := fetchSeq_value hs h
    exact ⟨r, hr, hv⟩

/-- Settles O15: `Ended` gives the three outcomes, and the elements that tell them apart are `FAULT` and `SEQ`. -/
theorem exactlyOneOutcome : Obligations.ExactlyOneOutcome := by
  unfold Obligations.ExactlyOneOutcome
  intro s i hs
  obtain ⟨t, ht⟩ := exec_ready hs i
  refine ⟨t, ht, ?_⟩
  obtain ⟨-, hend⟩ := exec_ended ht
  cases hend with
  | raised c hc => exact .inr (.inl ⟨fun h => (nomatch h.2), fun h => (nomatch h), fun h => h hs.1, c, rfl⟩)
  | completed v u hc hbody hu hv =>
    refine .inl ⟨⟨hu.idle hs, hu.noFault hs⟩, fun h => h (hu.noFault hs), fun h => h (hu.idle hs), ?_⟩
    have hresult := body_result hs.1 hbody
    cases i <;> exact hresult
  | hung u ch r n hc hu hm hn =>
    have hf : (u.hungFetch ch r n).fault = none := (State.hungFetch_fault u ch r n).trans (hu.noFault hs)
    refine .inr (.inr ⟨fun h => (nomatch h.1), fun h => h hf, State.hungFetch_stuck _ _ _ _, ?_, ?_⟩)
    · rw [State.hungFetch_res, hu.res, startOf_res]
    · rw [State.hungFetch_params, hu.params, startOf_params, hm]

/-- Settles O16: the checks pass, and an operation is stuck in HARD mode only. -/
theorem softOperationsComplete : Obligations.SoftOperationsComplete := by
  unfold Obligations.SoftOperationsComplete
  intro s i hs hsoft hi
  obtain ⟨t, ht⟩ := exec_ready hs i
  refine ⟨t, ht, ?_⟩
  obtain ⟨-, hend⟩ := exec_ended ht
  cases hend with
  | raised c hc =>
    obtain ⟨-, hd, hne⟩ | ⟨-, hd, he⟩ := initCheck_some hc
    · exact absurd (hi.2 hd) hne
    · rw [hi.1 he] at hd
      cases hd
  | completed v u hc hbody hu hv => exact ⟨hu.idle hs, hu.noFault hs⟩
  | hung u ch r n hc hu hm hn =>
    rw [hsoft] at hm
    cases hm

/-! #### Faults and reset -/

/-- Settles O14: a step that records a fault was F_ILLEGAL's or a failed check's; reset and the idle step record
none. -/
theorem faultEntryIsPrecise : Obligations.FaultEntryIsPrecise := by
  unfold Obligations.FaultEntryIsPrecise
  intro s t h ht
  obtain ⟨-, rfl⟩ | ⟨-, hs, -, rfl⟩ | ⟨w, rest, i, -, -, hq, hd, he⟩ | ⟨w, rest, reason, -, -, hq, -, rfl⟩ :=
    step_cases h
  · exact absurd rfl ht
  · exact absurd hs.2 ht
  · obtain ⟨c, rfl⟩ := exec_faulted he ht
    exact ⟨⟨c, encode i⟩, rfl, rfl, eq_encode_of_decode hd ▸ hq⟩
  · exact ⟨⟨.illegal, w⟩, rfl, rfl, hq⟩

/-- Settles O9: the reset step is `applyReset`; any other step starts from a ready block and keeps `INIT_DONE`. -/
theorem resetAndOnlyResetClears : Obligations.ResetAndOnlyResetClears := by
  unfold Obligations.ResetAndOnlyResetClears
  intro s
  refine ⟨fun hreset => ⟨s.applyReset, step_reset hreset, by simp⟩, fun t hreset h => ?_⟩
  obtain ⟨hreset', -⟩ | ⟨-, hs, -, rfl⟩ | ⟨w, rest, i, -, hs, -, -, he⟩ | ⟨w, rest, reason, -, hs, -, -, rfl⟩ :=
    step_cases h
  · rw [hreset] at hreset'
    cases hreset'
  · exact ⟨hs.2, id⟩
  · exact ⟨hs.2, exec_keeps_initDone (s := s.setRequests rest) he⟩
  · exact ⟨hs.2, id⟩

end Sys2Proof.Machine
end

/-! ### INIT -/

section
namespace Sys2Proof.Machine

variable {s t : State} {r : Nat → Byte} {n : Nat}

theorem initBody_done (hs : s.seq = .idle) (hr : s.Receives 9 r) : initBody s = .done 0 (s.setUp.fetched .x r) := by
  simp only [initBody, initSetup_eq, fetchSeq_done (s := s.setUp) hs hr, Micro.bind_done]

theorem initBody_hung (hs : s.seq = .idle) (hn : n < 9) (hr : s.Receives n r) (hx : s.rxByte n = none) :
    initBody s = .hung (s.setUp.hungFetch .x r n) := by
  simp only [initBody, initSetup_eq, (fetchSeq_hung (s := s.setUp) hs hn hr hx).2, Micro.bind_hung]

/-- INIT's body is its set-up and one X fetch, which returns or hangs (R84). -/
theorem initBody_cases (hs : s.seq = .idle) :
    (∃ r, initBody s = .done 0 (s.setUp.fetched .x r)) ∨
      ∃ r n, n < 9 ∧ initBody s = .hung (s.setUp.hungFetch .x r n) := by
  obtain ⟨r, hr⟩ | ⟨n, r, hn, hr, hx⟩ := s.receives_or_hangs 9
  · exact .inl ⟨r, initBody_done hs hr⟩
  · exact .inr ⟨r, n, hn, initBody_hung hs hn hr hx⟩

theorem exec_init (hs : s.Ready) (hd : s.initDone = false) : exec .init s = .next (initBody s).settle :=
  exec_body hs (s.initCheck_init hd)

/-- An INIT that completes leaves the fetched state, with 0 in `RES` (R84). -/
theorem exec_init_completed (hs : s.Ready) (hd : s.initDone = false) (h : exec .init s = .next t) (ht : t.Completed) :
    ∃ r, t = (s.setUp.fetched .x r).complete 0 := by
  rw [exec_init hs hd, Host.Outcome.next.injEq] at h
  obtain ⟨r, he⟩ | ⟨r, n, -, he⟩ := initBody_cases hs.1
  · exact ⟨r, by rw [← h, he, Micro.settle_done]⟩
  · rw [he, Micro.settle_hung] at h
    subst h
    cases ht.1

/-- Settles O17. -/
theorem initCompletes : Obligations.InitCompletes := by
  unfold Obligations.InitCompletes
  intro s r hs hd hr
  rw [exec_init hs hd, initBody_done hs.1 hr]
  rfl

/-- Settles O18: the hung state of the priming fetch, which is written out in `hungFetch`, has the elements claimed. -/
theorem initHangs : Obligations.InitHangs := by
  unfold Obligations.InitHangs
  intro s r n hs hd hn hr hx
  refine ⟨s.setUp.hungFetch .x r n, ?_, rfl, State.hungFetch_stuck _ _ _ _, State.hungFetch_initDone _ _ _ _, rfl, rfl,
    State.hungFetch_res _ _ _ _⟩
  rw [exec_init hs hd, initBody_hung hs.1 hn hr hx, Micro.settle_hung]

/-- Settles O19: a completed INIT leaves one fetch after the set-up, and before INIT `TRACE` is empty and `PERIPH_OPEN`
is 0. -/
theorem stateAfterInit : Obligations.StateAfterInit := by
  unfold Obligations.StateAfterInit
  intro s t hinv hs hd h ht
  obtain ⟨-, -, -, hopen, -, -, htrace⟩ := hinv.beforeInit hd
  obtain ⟨r, rfl⟩ := exec_init_completed hs hd h ht
  have hconf : s.setUp.trace = [.cfg, .cs true] ++ (if s.params.hasPresence then [.cfg] else []) := by
    cases hp : s.params.hasPresence <;> simp [State.setUp, htrace, hp]
  have hconfOp : s.setUp.opTrace = s.setUp.trace := by
    rw [State.opTrace, hconf]
    cases s.params.hasPresence <;> rfl
  have hframe := s.setUp.opTrace_fetched .x r
  rw [selectEvents_eq_ite, releaseEvents_eq_ite, hconfOp, hconf] at hframe
  refine ⟨by simp [State.setUp], rfl, fun hm => ?_, fun hm => ?_, ?_, rfl, by simp [State.setUp],
    by simp [State.setUp], r, hframe, ?_⟩
  · simp [State.fetched, hm]
  · simp [State.setUp, hm]
  · cases hm : s.params.mode <;> simp [State.fetched, hm, State.setUp, hopen]
  · rw [← hconf]
    rfl

end Sys2Proof.Machine
end

/-! ### The invariants -/

section
namespace Sys2Proof.Machine

variable {i : Instr} {s t : State}

/-! #### The relations between the elements of the state -/

/-- The invariant does not speak of the caller's requests. -/
theorem State.Inv.setRequests (h : s.Inv) (rest : List Word) : (s.setRequests rest).Inv :=
  ⟨h.soft, h.hard, h.beforeInit, h.afterInit, h.configured, h.stuck, h.twelveBit, h.cause⟩

theorem State.resetWith_inv (p : Params) (env : Environment) (requests : List Word) :
    (State.resetWith p env requests).Inv := by
  constructor <;> simp [State.resetWith]

/-- The causes of R112: what may be recorded in `FAULT` of a block s. -/
def State.CauseOk (s : State) (f : FaultRecord) : Prop :=
  match f.code with
  | .illegal => ∃ reason, decode f.word = .error reason
  | .notInit => s.initDone = false ∧ ∃ i, i ≠ .init ∧ f.word = encode i
  | .reinit => s.initDone = true ∧ f.word = encode .init

/-- A block that is not stuck keeps the invariant when it records one of the causes. -/
theorem State.Inv.raise (h : s.Inv) (hs : s.seq = .idle) {c : FaultCode} {w : Word} (hc : s.CauseOk ⟨c, w⟩) :
    (s.raise c w).Inv where
  soft := h.soft
  hard := h.hard
  beforeInit := h.beforeInit
  afterInit := h.afterInit
  configured := h.configured
  stuck hne := absurd hs hne
  twelveBit := h.twelveBit
  cause f hf := by
    obtain rfl : ⟨c, w⟩ = f := by simpa using hf
    exact hc

/-- A check on INIT that fails is a cause of R112. -/
theorem causeOk_of_initCheck {c : FaultCode} (h : s.initCheck i = some c) : s.CauseOk ⟨c, encode i⟩ := by
  obtain ⟨rfl, hd, hi⟩ | ⟨rfl, hd, rfl⟩ := initCheck_some h
  · exact ⟨hd, i, hi, rfl⟩
  · exact ⟨hd, rfl⟩

/-- Between two micro-operations with MOSI at rest the invariant holds. -/
theorem State.Between.inv (h : s.Between)
    (hmosi : s.params.mode = .soft → s.mosi = Level.ofBit (s.params.dummy.getLsbD 0)) : s.Inv where
  soft hm := ⟨(h.soft hm).1, (h.soft hm).2, h.idle⟩
  hard := h.hard
  beforeInit hd := by simp [h.initDone] at hd
  afterInit _ _ := ⟨h.lines.1, h.lines.2.1, fun hm => ⟨h.lines.2.2 hm, hmosi hm⟩⟩
  configured _ := h.configured
  stuck hne := absurd h.idle hne
  twelveBit := by
    obtain ⟨⟨h0, h1, h2⟩, hx, hy, hres⟩ := h.twelveBit
    exact ⟨h0, h1, h2, hx, hy, hres⟩
  cause f hf := by simp [h.noFault] at hf

/-- A body starts between two micro-operations. -/
theorem State.Inv.startOf_between (h : s.Inv) (hs : s.Ready) (hc : s.initCheck i = none) :
    (startOf i s).Between := by
  obtain ⟨rfl, hd⟩ | ⟨hi, hd⟩ := initCheck_pass hc
  · exact h.setUp hs hd
  · rw [startOf_eq_self hi]
    exact h.between ⟨hs, hd⟩

theorem State.fetched_mosi_soft (hm : s.params.mode = .soft) (ch : Channel) (r : Nat → Byte) :
    (s.fetched ch r).mosi = Level.ofBit (s.params.dummy.getLsbD 0) := by
  simp [State.fetched, hm]

/-- A body that returns leaves MOSI at rest: INIT's ends with a fetch, and the others start with MOSI at rest. -/
theorem body_mosi_rests {v : Word} (h : s.Inv) (hs : s.Ready) (hc : s.initCheck i = none) (hb : bodyOf i s = .done v t)
    (ht : Ran (startOf i s) t) :
    t.params.mode = .soft → t.mosi = Level.ofBit (t.params.dummy.getLsbD 0) := by
  obtain ⟨rfl, hd⟩ | ⟨hi, hd⟩ := initCheck_pass hc
  · obtain ⟨r, he⟩ | ⟨r, n, -, he⟩ := initBody_cases hs.1 <;> rw [bodyOf, he] at hb <;> cases hb
    intro hm
    rw [State.fetched_params] at hm ⊢
    exact State.fetched_mosi_soft hm .x r
  · rw [startOf_eq_self hi] at ht
    exact ht.mosi fun hm => ((h.afterInit hd hs.1).2.2 hm).2

/-- Every operation keeps the invariant. -/
theorem exec_keeps_inv (h : s.Inv) (he : exec i s = .next t) : t.Inv := by
  obtain ⟨hs, hend⟩ := exec_ended he
  cases hend with
  | raised c hc => exact h.raise hs.1 (causeOk_of_initCheck hc)
  | completed v u hc hbody hu hv =>
    have hmosi := body_mosi_rests h hs hc hbody hu
    exact (((h.startOf_between hs hc).ran hu).complete hv).inv hmosi
  | hung u ch r n hc hu hm hn =>
    exact ((h.startOf_between hs hc).ran hu).hungFetch (by rw [hu.params, startOf_params, hm]) ch r n

/-- Settles O51: a step resets, idles, performs an operation or raises F_ILLEGAL, and each keeps the invariant. -/
theorem stepKeepsInvariant : Obligations.StepKeepsInvariant := by
  unfold Obligations.StepKeepsInvariant
  intro s t h hstep
  obtain ⟨-, rfl⟩ | ⟨-, -, -, rfl⟩ | ⟨w, rest, i, -, -, -, -, he⟩ | ⟨w, rest, reason, -, hs, -, hd, rfl⟩ :=
    step_cases hstep
  · exact State.resetWith_inv _ _ _
  · exact h
  · exact exec_keeps_inv (h.setRequests rest) he
  · exact (h.setRequests rest).raise hs.1 ⟨reason, hd⟩

/-- Settles O53: a completed operation leaves `INIT_DONE` set, and the invariant it keeps gives the lines. -/
theorem linesBetweenOperations : Obligations.LinesBetweenOperations := by
  unfold Obligations.LinesBetweenOperations
  intro s t i h he ht
  have hd : t.initDone = true := by
    obtain ⟨-, hend⟩ := exec_ended he
    cases hend with
    | raised c hc => cases ht.2
    | completed v u hc hbody hu hv => rw [State.complete_initDone, hu.initDone, startOf_initDone hc]
    | hung u ch r n hc hu hm hn => cases ht.1
  obtain ⟨hcs, hopen, hlines⟩ := (exec_keeps_inv h he).afterInit hd ht.1
  exact ⟨hd, hcs, hopen, ht.1, fun hm => (hlines hm).1⟩

/-! #### The scope discipline of TRACE -/

/-- A body starts outside any scope. -/
theorem State.ScopesOk.startOf (h : s.ScopesOk) (hs : s.Ready) (i : Instr) : (startOf i s).ScopesOk := by
  have h0 : scanTrace s.params.mode s.trace = some .outside := by
    rw [State.ScopesOk, hs.1] at h
    exact h
  cases i with
  | init =>
    rw [State.ScopesOk, startOf_seq, hs.1]
    exact scanTrace_setUp h0
  | isBusy => exact h
  | isTouched => exact h
  | getRawPoint => exact h
  | fetch ch => exact h

/-- A body that is between two micro-operations is outside any scope. -/
theorem Ran.scan_outside (h : Ran (startOf i s) t) (hs : s.Ready) (hok : s.ScopesOk) :
    Machine.scanTrace t.params.mode t.trace = some .outside := by
  have hstart := hok.startOf hs i
  rw [State.ScopesOk, startOf_seq, hs.1] at hstart
  exact h.scanTrace hstart

/-- The exchange number n of a fetch is transfer n % 3 of cycle n / 3, of the scope in which n transfers are made. -/
theorem scope_of_exchange {n : Nat} (hn : n < 9) :
    (Seq.xfer (Fin.ofNat 3 (n / 3)) (Fin.ofNat 3 (n % 3))).scope = .inside n := by
  simp only [Seq.scope, Fin.val_ofNat, Scope.inside.injEq]
  omega

/-- A fetch that hangs at its exchange number n leaves its scope open, with n transfers in it. -/
theorem State.hungFetch_scopesOk (hok : scanTrace s.params.mode s.trace = some .outside) (hm : s.params.mode = .hard)
    (ch : Channel) (r : Nat → Byte) {n : Nat} (hn : n < 9) : (s.hungFetch ch r n).ScopesOk := by
  rw [hm] at hok
  rw [State.ScopesOk, State.hungFetch_params, hm]
  simp only [State.hungFetch]
  rw [scope_of_exchange hn, scanTrace, read_append hok, read_append (read_selectEvents .hard),
    read_fetchXfers .hard _ _ _ (Nat.le_of_lt hn)]

/-- Every operation keeps the scope discipline: whole fetches are passed over by the reader of `TRACE`, and a hung one
leaves it inside. -/
theorem exec_keeps_scopesOk (hok : s.ScopesOk) (h : exec i s = .next t) : t.ScopesOk := by
  obtain ⟨hs, hend⟩ := exec_ended h
  cases hend with
  | raised c hc => exact hok
  | completed v u hc hbody hu hv =>
    have hidle : (u.complete v).seq = .idle := hu.idle hs
    rw [State.ScopesOk, hidle]
    exact hu.scan_outside hs hok
  | hung u ch r n hc hu hm hn =>
    exact State.hungFetch_scopesOk (hu.scan_outside hs hok) (by rw [hu.params, startOf_params, hm]) ch r hn

/-- Settles O52: the steps that are no operation write no event, or empty `TRACE`. -/
theorem stepKeepsScopeDiscipline : Obligations.StepKeepsScopeDiscipline := by
  unfold Obligations.StepKeepsScopeDiscipline
  intro s t _ hok hstep
  obtain ⟨-, rfl⟩ | ⟨-, -, -, rfl⟩ | ⟨w, rest, i, -, -, -, -, he⟩ | ⟨w, rest, reason, -, -, -, -, rfl⟩ :=
    step_cases hstep
  · rfl
  · exact hok
  · exact exec_keeps_scopesOk (s := s.setRequests rest) hok he
  · exact hok

/-! #### Presence reads come after a whole fetch -/

/-- Every presence read of a trace stands after nine exchanges: the first clause of `State.PrimesFirst`. -/
def PresencePrimed (trace : List Event) : Prop :=
  ∀ before b after, trace = before ++ .pres b :: after → 9 ≤ before.countP Event.isXfer

theorem PresencePrimed.of_notMem {l : List Event} (h : ∀ b, Event.pres b ∉ l) : PresencePrimed l := by
  rintro before b after rfl
  exact absurd (by simp) (h b)

/-- New events without a presence read, or after nine exchanges, keep it. -/
theorem PresencePrimed.append {l new : List Event} (h : PresencePrimed l)
    (hnew : (∀ b, Event.pres b ∉ new) ∨ 9 ≤ l.countP Event.isXfer) : PresencePrimed (l ++ new) := by
  intro before b after he
  obtain ⟨mid, rfl, hmid⟩ | ⟨mid, rfl, hmid⟩ := List.append_eq_append_iff.1 he
  · obtain hnew | hcount := hnew
    · exact absurd (by rw [hmid]; simp) (hnew b)
    · rw [List.countP_append]
      omega
  · cases mid with
    | nil =>
      obtain hnew | hcount := hnew
      · exact absurd (by rw [← List.nil_append new, ← hmid]; simp) (hnew b)
      · simpa using hcount
    | cons e mid =>
      obtain ⟨rfl, -⟩ := List.cons.inj hmid
      exact h before b mid rfl

/-- Along a body that starts after nine exchanges there stay nine, and every presence read is primed. -/
theorem Ran.presencePrimed (h : Ran s t) (hp : PresencePrimed s.trace) (hn : 9 ≤ s.trace.countP Event.isXfer) :
    PresencePrimed t.trace ∧ 9 ≤ t.trace.countP Event.isXfer := by
  obtain ⟨new, he⟩ := h.trace
  rw [he]
  refine ⟨hp.append (.inr hn), ?_⟩
  rw [List.countP_append]
  omega

/-- The events of a hung fetch hold no presence read. -/
theorem State.hungFetch_presencePrimed (hp : PresencePrimed s.trace) (ch : Channel) (r : Nat → Byte) (n : Nat) :
    PresencePrimed (s.hungFetch ch r n).trace := by
  refine hp.append (.inl fun b => ?_)
  have := pres_notMem_fetchXfers .hard (command s.params ch) s.params.dummy r n b
  simp [selectEvents, this]

/-- A whole fetch makes nine exchanges. -/
theorem countP_fetchEvents (m : Mode) (cmd dummy : Byte) (r : Nat → Byte) :
    (fetchEvents m cmd dummy r).countP Event.isXfer = 9 := by
  cases m <;>
    simp [fetchEvents, List.countP_append, countP_fetchXfers, selectEvents, releaseEvents, Event.isXfer]

/-- INIT reads no presence line, and if it completes it has made a whole fetch. -/
theorem exec_init_primesFirst (hinv : s.Inv) (hs : s.Ready) (hd : s.initDone = false) (h : exec .init s = .next t) :
    t.PrimesFirst := by
  obtain ⟨-, -, -, -, -, -, htrace⟩ := hinv.beforeInit hd
  have hsetUp : PresencePrimed s.setUp.trace := by
    refine .of_notMem fun b => ?_
    cases hp : s.params.hasPresence <;> simp [State.setUp, htrace, hp]
  rw [exec_init hs hd, Host.Outcome.next.injEq] at h
  subst h
  obtain ⟨r, he⟩ | ⟨r, n, -, he⟩ := initBody_cases hs.1 <;> rw [he]
  · refine ⟨hsetUp.append (.inl (pres_notMem_fetchEvents _ _ _ r)), fun _ _ => ?_⟩
    show 9 ≤ (s.setUp.trace ++ fetchEvents _ _ _ r).countP Event.isXfer
    rw [List.countP_append, countP_fetchEvents]
    omega
  · exact ⟨State.hungFetch_presencePrimed hsetUp .x r n,
      fun _ hidle => absurd hidle (State.hungFetch_stuck _ _ _ _)⟩

/-- Every operation keeps the priming order. -/
theorem exec_keeps_primesFirst (hinv : s.Inv) (hp : s.PrimesFirst) (h : exec i s = .next t) : t.PrimesFirst := by
  have hs := (exec_ended h).1
  by_cases hinit : i = .init ∧ s.initDone = false
  · obtain ⟨rfl, hd⟩ := hinit
    exact exec_init_primesFirst hinv hs hd h
  have hrun : s.initCheck i = none → ∀ {u}, Ran (startOf i s) u →
      PresencePrimed u.trace ∧ 9 ≤ u.trace.countP Event.isXfer := by
    intro hc u hu
    obtain hpass | ⟨hi, hd⟩ := initCheck_pass hc
    · exact absurd hpass hinit
    · rw [startOf_eq_self hi] at hu
      exact hu.presencePrimed hp.1 (hp.2 hd hs.1)
  cases (exec_ended h).2 with
  | raised c hc => exact hp
  | completed v u hc hbody hu hv => exact ⟨(hrun hc hu).1, fun _ _ => (hrun hc hu).2⟩
  | hung u ch r n hc hu hm hn =>
    exact ⟨State.hungFetch_presencePrimed (hrun hc hu).1 ch r n,
      fun _ hidle => absurd hidle (State.hungFetch_stuck _ _ _ _)⟩

/-- Settles O54: INIT makes the first nine exchanges and reads no presence line; nothing else runs before it. -/
theorem stepKeepsPrimingFirst : Obligations.StepKeepsPrimingFirst := by
  unfold Obligations.StepKeepsPrimingFirst
  intro s t hinv hp hstep
  obtain ⟨-, rfl⟩ | ⟨-, -, -, rfl⟩ | ⟨w, rest, i, -, -, -, -, he⟩ | ⟨w, rest, reason, -, -, -, -, rfl⟩ :=
    step_cases hstep
  · exact ⟨PresencePrimed.of_notMem (by simp), by simp⟩
  · exact hp
  · exact exec_keeps_primesFirst (hinv.setRequests rest) hp he
  · exact hp

/-- Settles O50: nothing has happened after reset, so `TRACE` is empty. -/
theorem resetMeetsInvariants : Obligations.ResetMeetsInvariants := by
  unfold Obligations.ResetMeetsInvariants
  exact ⟨State.resetWith_inv _ _ _, rfl, PresencePrimed.of_notMem (by simp [State.reset, State.resetWith]),
    by simp [State.reset, State.resetWith]⟩

/-- Settles O55: the fourteen positions are computed by `Seq.next`. -/
theorem sequencerOrder : Obligations.SequencerOrder := by
  unfold Obligations.SequencerOrder
  decide

end Sys2Proof.Machine
end

/-! ### IS_BUSY, IS_TOUCHED and FETCH -/

section
namespace Sys2Proof.Machine

variable {s t : State} {r : Nat → Byte} {n : Nat} {b : Bool}

/-! #### From the bodies to the operations -/

theorem exec_isTouched_done (hs : s.Running) (h : touchQuery s = .done b t) :
    exec .isTouched s = .next { t with res := if b then 1 else 0 } := by
  rw [exec_running hs (by simp), bodyOf, isTouchedBody, h, Micro.bind_done, Micro.settle_done, boolResult_eq]
  rfl

theorem exec_isTouched_hung (hs : s.Running) (h : touchQuery s = .hung t) : exec .isTouched s = .next t := by
  rw [exec_running hs (by simp), bodyOf, isTouchedBody, h, Micro.bind_hung, Micro.settle_hung]

/-- The pressure comparison as a result (R89). -/
theorem pressureResult_eq (p : Params) (z : Word) :
    (if pressureTouched p z then (1 : Word) else 0) = if p.z1Threshold.toNat ≤ z.toNat then 1 else 0 := by
  simp [pressureTouched]

theorem presenceResult_eq (level : Bool) : (if !level then (1 : Word) else 0) = if level then 0 else 1 := by
  cases level <;> rfl

/-- The body of IS_TOUCHED that hangs, in its Z1 fetch (R78, R89). -/
theorem touchQuery_hung (hs : s.seq = .idle) (hb : s.busyAnswer 0 = false) (hp : s.params.hasPresence = false)
    (hn : n < 9) (hr : s.Receives n r) (hx : s.rxByte n = none) :
    touchQuery s = .hung (s.queried.hungFetch .z1 r n) := by
  have hx' : s.queried.rxByte n = none := by rw [State.rxByte_queried, hx]
  have hfetch := (fetchSeq_hung (ch := .z1) (s := s.queried) hs hn ((s.receives_queried n r).2 hr) hx').2
  simp [touchQuery, busyQuery_eq, hb, hp, hfetch]

/-! #### The statements -/

/-- Settles O20: the busy query in closed form, at each mode. -/
theorem isBusyCompletes : Obligations.IsBusyCompletes := by
  unfold Obligations.IsBusyCompletes
  intro s hs
  have hexec : exec .isBusy s = .next (s.queried.complete (boolResult (s.busyAnswer 0))) := by
    rw [exec_running hs (by simp), bodyOf, isBusyBody, busyQuery_eq, Micro.settle_done]
  rw [hexec, boolResult_eq]
  refine ⟨fun hm => ?_, fun hm => ?_⟩ <;> simp [State.queried, State.complete, State.busyAnswer, hm, State.afterBusy]

/-- Settles O21. -/
theorem busyIsTouchedAnswersZero : Obligations.BusyIsTouchedAnswersZero := by
  unfold Obligations.BusyIsTouchedAnswersZero
  intro s hs hb
  exact exec_isTouched_done hs (touchQuery_busy hb)

/-- Settles O22: the presence line is active low. -/
theorem isTouchedReadsPresenceLine : Obligations.IsTouchedReadsPresenceLine := by
  unfold Obligations.IsTouchedReadsPresenceLine
  intro s hs hb hp
  rw [exec_isTouched_done hs (touchQuery_presence hb hp), presenceResult_eq]

/-- Settles O23. -/
theorem isTouchedComparesPressure : Obligations.IsTouchedComparesPressure := by
  unfold Obligations.IsTouchedComparesPressure
  intro s r hs hb hp hr
  rw [exec_isTouched_done hs (touchQuery_pressure hs.1.1 hb hp hr), pressureResult_eq]

/-- Settles O24. -/
theorem isTouchedHangs : Obligations.IsTouchedHangs := by
  unfold Obligations.IsTouchedHangs
  intro s r n hs hb hp hn hr hx
  exact ⟨s.queried.hungFetch .z1 r n, exec_isTouched_hung hs (touchQuery_hung hs.1.1 hb hp hn hr hx), rfl,
    State.hungFetch_stuck _ _ _ _, rfl, rfl, State.hungFetch_res _ _ _ _⟩

/-- Settles O25: a filtered sample is at least 0 and at most 4095, so the comparison is decided by the threshold. -/
theorem thresholdExtremes : Obligations.ThresholdExtremes := by
  unfold Obligations.ThresholdExtremes
  intro s t hs hp h ht
  obtain ⟨hb, he⟩ | ⟨-, hp', -⟩ | ⟨r, hb, -, -, he⟩ | ⟨n, r, -, -, -, -, he⟩ := touchQuery_cases hs.1.1
  · rw [exec_isTouched_done hs he, Host.Outcome.next.injEq] at h
    subst h
    refine ⟨fun _ hb' => ?_, fun _ => rfl⟩
    rw [hb] at hb'
    cases hb'
  · rw [hp] at hp'
    cases hp'
  · rw [exec_isTouched_done hs he, pressureResult_eq, Host.Outcome.next.injEq] at h
    subst h
    refine ⟨fun hz _ => if_pos (by simp [hz]), fun hz => if_neg ?_⟩
    have := fetchValue_lt r
    omega
  · rw [exec_isTouched_hung hs he, Host.Outcome.next.injEq] at h
    subst h
    exact absurd ht.1 (State.hungFetch_stuck _ _ _ _)

/-- Settles O35. -/
theorem fetchCompletes : Obligations.FetchCompletes := by
  unfold Obligations.FetchCompletes
  intro s ch r hs hr
  rw [exec_running hs (by simp), bodyOf, fetchSeq_done hs.1.1 hr]
  rfl

/-- In HARD mode the events of n transfers are n XFER events. -/
theorem fetchXfers_hard (cmd dummy : Byte) (r : Nat → Byte) (n : Nat) :
    fetchXfers .hard cmd dummy r n = (List.range n).map fun k => .xfer (fetchSends cmd dummy k) (r k) := by
  rw [fetchXfers, List.map_eq_flatMap]
  rfl

/-- Settles O37: the elements of the hung state, whose events are HARD mode's. -/
theorem fetchHangs : Obligations.FetchHangs := by
  unfold Obligations.FetchHangs
  intro s ch r n hs hn hr hx
  obtain ⟨-, he⟩ := fetchSeq_hung (ch := ch) hs.1.1 hn hr hx
  refine ⟨s.hungFetch ch r n, ?_, State.hungFetch_stuck _ _ _ _, rfl, rfl, State.hungFetch_res _ _ _ _, rfl, ?_⟩
  · rw [exec_running hs (by simp), bodyOf, he, Micro.settle_hung]
  · simp only [State.hungFetch, fetchXfers_hard, fetchSends, List.append_assoc]
    rfl

end Sys2Proof.Machine
end

/-! ### GET_RAW_POINT -/

section
namespace Sys2Proof.Machine

variable {s t u : State} {r : Nat → Byte} {n : Nat} {b : Bool}

/-! #### From the body to the operation -/

theorem exec_getRawPoint_done (hs : s.Running) (h : pointQuery s = .done b t) :
    exec .getRawPoint s = .next { t with res := if b then 1 else 0 } := by
  rw [exec_running hs (by simp), bodyOf, getRawPointBody, h, Micro.bind_done, Micro.settle_done, boolResult_eq]
  rfl

theorem exec_getRawPoint_hung (hs : s.Running) (h : pointQuery s = .hung t) : exec .getRawPoint s = .next t := by
  rw [exec_running hs (by simp), bodyOf, getRawPointBody, h, Micro.bind_hung, Micro.settle_hung]

/-! #### The body, by its touch check -/

theorem pointQuery_busy (hb : s.busyAnswer 0 = true) : pointQuery s = .done false s.queried := by
  simp [pointQuery, busyQuery_eq, hb]

theorem pointQuery_untouched (hb : s.busyAnswer 0 = false) (h : touchQuery s.queried = .done false u) :
    pointQuery s = .done false u := by
  simp [pointQuery, busyQuery_eq, hb, h]

theorem pointQuery_touched (hb : s.busyAnswer 0 = false) (h : touchQuery s.queried = .done true u) :
    pointQuery s = pointFetch u := by
  simp [pointQuery, busyQuery_eq, hb, h]

theorem pointQuery_hung (hb : s.busyAnswer 0 = false) (h : touchQuery s.queried = .hung u) :
    pointQuery s = .hung u := by
  simp [pointQuery, busyQuery_eq, hb, h]

/-! #### Its touch check is the second busy query's -/

theorem touchQuery_queried_presence (hb : s.busyAnswer 1 = false) (hp : s.params.hasPresence = true) :
    touchQuery s.queried = .done (!s.presenceAt 0) s.queried.queried.presenceRead := by
  rw [touchQuery_presence ((s.busyAnswer_queried 0).trans hb) hp, State.presenceAt_queried]

theorem touchQuery_queried_pressure (hs : s.seq = .idle) (hb : s.busyAnswer 1 = false)
    (hp : s.params.hasPresence = false) (hr : s.Receives 9 r) :
    touchQuery s.queried =
      .done (pressureTouched s.params (fetchValue r)) (s.queried.queried.fetched .z1 r) :=
  touchQuery_pressure (s := s.queried) hs ((s.busyAnswer_queried 0).trans hb) hp ((s.receives_queried 9 r).2 hr)

/-- A touch check that returns has run along `Ran`. -/
theorem touchQuery_ran_of_done (hs : s.seq = .idle) (h : touchQuery s = .done b u) : Ran s u := by
  obtain ⟨b', u', he, hu⟩ | ⟨v, ch, r, n, he, -⟩ := touchQuery_ran hs <;> rw [h] at he <;> cases he
  exact hu

/-! #### The fetches of a touched point that hang -/

theorem pointFetch_hung_x (hs : s.seq = .idle) (hn : n < 9) (hr : s.Receives n r) (hx : s.rxByte n = none) :
    pointFetch s = .hung (s.hungFetch .x r n) := by
  simp only [pointFetch, (fetchSeq_hung (ch := .x) hs hn hr hx).2, Micro.bind_hung]

theorem pointFetch_hung_y (hs : s.seq = .idle) (hn : n < 9) (hr : s.Receives (9 + n) r)
    (hx : s.rxByte (9 + n) = none) :
    pointFetch s = .hung ((s.fetched .x r).hungFetch .y (fun k => r (9 + k)) n) := by
  have hxFetch := fetchSeq_done (ch := .x) hs (hr.mono (Nat.le_add_right 9 n))
  have hyFetch := fetchSeq_hung (ch := .y) (s := s.fetched .x r) ((State.fetched_seq _ _ _).trans hs) hn
    (s.receives_fetched rfl hr) ((State.rxByte_fetched _ _ _ _).trans hx)
  simp only [pointFetch, hxFetch, Micro.bind_done, hyFetch.2, Micro.bind_hung]

/-- A touched point whose exchange number n is the first that never returns, counted from its X fetch: where it is
stuck, and what it has not written (R78, R93 item 6). -/
theorem pointFetch_hung (hs : s.seq = .idle) (hn : n < 18) (hr : s.Receives n r) (hx : s.rxByte n = none) :
    ∃ t, pointFetch s = .hung t ∧ t.Stuck ∧ t.res = s.res ∧ t.xOut = s.xOut ∧ t.yOut = s.yOut ∧
      (n < 9 → t = s.hungFetch .x r n) ∧
      (9 ≤ n → t = (s.fetched .x r).hungFetch .y (fun k => r (9 + k)) (n - 9)) := by
  by_cases h9 : n < 9
  · exact ⟨_, pointFetch_hung_x hs h9 hr hx, State.hungFetch_stuck _ _ _ _, by simp, by simp, by simp, fun _ => rfl,
      fun h => absurd h (by omega)⟩
  · obtain ⟨m, rfl⟩ : ∃ m, n = 9 + m := ⟨n - 9, by omega⟩
    refine ⟨_, pointFetch_hung_y hs (by omega) hr hx, State.hungFetch_stuck _ _ _ _, by simp, by simp, by simp,
      fun h => absurd h h9, fun _ => ?_⟩
    rw [Nat.add_sub_cancel_left]

/-! #### The statements -/

/-- Settles O26. -/
theorem busyPointReadAnswersZero : Obligations.BusyPointReadAnswersZero := by
  unfold Obligations.BusyPointReadAnswersZero
  intro s hs
  exact ⟨fun hb => exec_getRawPoint_done hs (pointQuery_busy hb), fun hb hb' =>
    exec_getRawPoint_done hs (pointQuery_untouched hb (touchQuery_busy ((s.busyAnswer_queried 0).trans hb')))⟩

/-- Settles O27: either touch check finds no touch. -/
theorem untouchedPointReadAnswersZero : Obligations.UntouchedPointReadAnswersZero := by
  unfold Obligations.UntouchedPointReadAnswersZero
  intro s hs hb hb'
  refine ⟨fun hp hlevel => ?_, fun r hp hr hz => ?_⟩
  · have htouch := touchQuery_queried_presence hb' hp
    rw [hlevel] at htouch
    exact exec_getRawPoint_done hs (pointQuery_untouched hb htouch)
  · have htouch := touchQuery_queried_pressure hs.1.1 hb' hp hr
    rw [show pressureTouched s.params (fetchValue r) = false by simpa [pressureTouched] using hz] at htouch
    exact exec_getRawPoint_done hs (pointQuery_untouched hb htouch)

/-- A touched point read without POINT_POSTCHECK whose X and Y fetches return (R92). -/
theorem exec_getRawPoint_touched (hs : s.Running) (hb : s.busyAnswer 0 = false)
    (hpost : s.params.pointPostcheck = false) (htouch : touchQuery s.queried = .done true u) (hr : u.Receives 18 r) :
    exec .getRawPoint s =
      .next { (u.fetched .x r).fetched .y (fun k => r (9 + k)) with
        xOut := fetchValue r, yOut := fetchValue (fun k => r (9 + k)), res := 1 } := by
  have hu := touchQuery_ran_of_done (s := s.queried) hs.1.1 htouch
  have hpoint := pointFetch_done (hu.seq.trans hs.1.1) hr
  rw [← pointQuery_touched hb htouch, hu.params, State.queried_params, hpost] at hpoint
  exact exec_getRawPoint_done hs hpoint

/-- Settles O28. -/
theorem pointReadByPresence : Obligations.PointReadByPresence := by
  unfold Obligations.PointReadByPresence
  intro s r hs hb hb' hpost hp hlevel hr
  have htouch := touchQuery_queried_presence hb' hp
  rw [hlevel] at htouch
  exact exec_getRawPoint_touched hs hb hpost htouch (by simpa [State.Receives, State.rxByte_queried] using hr)

/-- The exchanges after a Z1 fetch of the touch check. -/
theorem receives_after_touch (hr : s.Receives (9 + n) r) :
    (s.queried.queried.fetched .z1 r).Receives n fun k => r (9 + k) :=
  s.queried.queried.receives_fetched rfl (by simpa only [State.receives_queried] using hr)

/-- Settles O29: the 18 exchanges of the X and Y fetches are those after the nine of the Z1 fetch. -/
theorem pointReadByPressure : Obligations.PointReadByPressure := by
  unfold Obligations.PointReadByPressure
  intro s r hs hb hb' hpost hp hr hz
  have htouch := touchQuery_queried_pressure hs.1.1 hb' hp (hr.mono (by decide))
  rw [show pressureTouched s.params (fetchValue r) = true by simpa [pressureTouched] using hz] at htouch
  have hyBytes : (fun k => r (9 + (9 + k))) = fun k => r (18 + k) := by
    funext k
    rw [← Nat.add_assoc]
  have hexec := exec_getRawPoint_touched hs hb hpost htouch (receives_after_touch (n := 18) hr)
  rw [hyBytes] at hexec
  exact hexec

/-- Settles O30: the touch check by the presence line, then `pointFetch_hung`. -/
theorem pointReadHangs : Obligations.PointReadHangs := by
  unfold Obligations.PointReadHangs
  intro s r n hs hb hb' hp hlevel hn hr hx
  have htouch := touchQuery_queried_presence hb' hp
  rw [hlevel] at htouch
  obtain ⟨t, he, hstuck, hres, hxOut, hyOut, hX, hY⟩ := pointFetch_hung
    (s := s.queried.queried.presenceRead) hs.1.1 hn
    (by simpa [State.Receives, State.rxByte_queried] using hr) (by simpa [State.rxByte_queried] using hx)
  rw [← pointQuery_touched hb htouch] at he
  exact ⟨t, exec_getRawPoint_hung hs he, hstuck, hres, hxOut, hyOut, hX, hY⟩

/-- Settles O31: stuck in the touch check's Z1 fetch, or past it in `pointFetch_hung`, nine exchanges later. -/
theorem pressurePointReadHangs : Obligations.PressurePointReadHangs := by
  unfold Obligations.PressurePointReadHangs
  intro s r n hs hb hb' hp hn hr hx hz
  by_cases h9 : n < 9
  · have htouch := touchQuery_hung (s := s.queried) hs.1.1 ((s.busyAnswer_queried 0).trans hb') hp h9
      ((s.receives_queried n r).2 hr) ((s.rxByte_queried n).trans hx)
    exact ⟨_, exec_getRawPoint_hung hs (pointQuery_hung hb htouch), State.hungFetch_stuck _ _ _ _,
      State.hungFetch_res _ _ _ _, State.hungFetch_xOut _ _ _ _, State.hungFetch_yOut _ _ _ _, fun _ => rfl,
      fun h => absurd h (by omega), fun h => absurd h (by omega)⟩
  · obtain ⟨m, rfl⟩ : ∃ m, n = 9 + m := ⟨n - 9, by omega⟩
    have htouch := touchQuery_queried_pressure hs.1.1 hb' hp (hr.mono (Nat.le_add_right 9 m))
    rw [show pressureTouched s.params (fetchValue r) = true by
      simpa [pressureTouched] using hz (Nat.le_add_right 9 m)] at htouch
    have hx' : (s.queried.queried.fetched .z1 r).rxByte m = none := by
      simpa [State.rxByte_fetched, State.rxByte_queried] using hx
    obtain ⟨t, he, hstuck, hres, hxOut, hyOut, hX, hY⟩ := pointFetch_hung
      (s := s.queried.queried.fetched .z1 r) (n := m) ((State.fetched_seq _ _ _).trans hs.1.1) (by omega)
      (receives_after_touch hr) hx'
    rw [← pointQuery_touched hb htouch] at he
    refine ⟨t, exec_getRawPoint_hung hs he, hstuck, hres.trans (State.fetched_res _ _ _),
      hxOut.trans (State.fetched_xOut _ _ _), hyOut.trans (State.fetched_yOut _ _ _), fun h => absurd h h9,
      fun _ h => ?_, fun h => ?_⟩
    · rw [Nat.add_sub_cancel_left]
      exact hX (by omega)
    · rw [hY (by omega), show 9 + m - 18 = m - 9 by omega]
      simp only [← Nat.add_assoc, Nat.reduceAdd]

/-- A touched point read with POINT_POSTCHECK runs the touch check again, after writing its outputs (R92, D22). -/
theorem pointQuery_postcheck {v : State} (hs : s.Running) (hb : s.busyAnswer 0 = false)
    (hpost : s.params.pointPostcheck = true) (htouch : touchQuery s.queried = .done true u) (hr : u.Receives 18 r)
    (hv : v = { (u.fetched .x r).fetched .y (fun k => r (9 + k)) with
      xOut := fetchValue r, yOut := fetchValue (fun k => r (9 + k)) }) :
    pointQuery s = touchQuery v ∧ Ran s v := by
  have hu := touchQuery_ran_of_done (s := s.queried) hs.1.1 htouch
  have hpoint := pointFetch_done (hu.seq.trans hs.1.1) hr
  rw [← pointQuery_touched hb htouch, hu.params, State.queried_params, hpost] at hpoint
  subst hv
  exact ⟨hpoint, (Ran.start.query.trans ((hu.fetch .x r).fetch .y _)).point _ _ (fetchValue_lt r) (fetchValue_lt _)⟩

/-- Settles O32: the last touch check hangs in its Z1 fetch, after the outputs were written. -/
theorem postcheckHangs : Obligations.PostcheckHangs := by
  unfold Obligations.PostcheckHangs
  intro s u v r z n hs hb hpost hp htouch hr hv hbv hn hz hx
  obtain ⟨hpoint, hran⟩ := pointQuery_postcheck hs hb hpost htouch hr hv
  have hvp : v.params.hasPresence = false := by rw [hran.params, hp]
  rw [touchQuery_hung (hran.seq.trans hs.1.1) hbv hvp hn hz hx] at hpoint
  refine ⟨_, exec_getRawPoint_hung hs hpoint, rfl, State.hungFetch_stuck _ _ _ _, rfl, rfl,
    (State.hungFetch_res _ _ _ _).trans hran.res, (State.hungFetch_xOut _ _ _ _).trans ?_,
    (State.hungFetch_yOut _ _ _ _).trans ?_⟩ <;> rw [hv] <;> rfl

/-- Settles O33: the last touch check by its three cases. -/
theorem postcheckDecidesResult : Obligations.PostcheckDecidesResult := by
  unfold Obligations.PostcheckDecidesResult
  intro s u v r hs hb hpost htouch hr hv
  obtain ⟨hpoint, hran⟩ := pointQuery_postcheck hs hb hpost htouch hr hv
  refine ⟨fun hbv => ?_, fun hbv hp => ?_, fun z hbv hp hz => ?_⟩
  · exact exec_getRawPoint_done hs (hpoint.trans (touchQuery_busy hbv))
  · rw [exec_getRawPoint_done hs (hpoint.trans (touchQuery_presence hbv (by rw [hran.params, hp]))), presenceResult_eq]
  · rw [exec_getRawPoint_done hs (hpoint.trans
      (touchQuery_pressure (hran.seq.trans hs.1.1) hbv (by rw [hran.params, hp]) hz)), pressureResult_eq, hran.params]

/-! #### Where the outputs are written -/

/-- The touch check leaves the outputs, whether it returns or hangs. -/
theorem touchQuery_outputs (hs : s.seq = .idle) :
    (∃ b u, touchQuery s = .done b u ∧ Ran s u ∧ u.xOut = s.xOut ∧ u.yOut = s.yOut) ∨
      ∃ u, touchQuery s = .hung u ∧ u.Stuck ∧ u.xOut = s.xOut ∧ u.yOut = s.yOut := by
  obtain ⟨-, he⟩ | ⟨-, -, he⟩ | ⟨r, -, -, -, he⟩ | ⟨n, r, -, -, -, -, he⟩ := touchQuery_cases hs
  · exact .inl ⟨_, _, he, Ran.start.query, rfl, rfl⟩
  · exact .inl ⟨_, _, he, Ran.start.query.presence, rfl, rfl⟩
  · exact .inl ⟨_, _, he, Ran.start.query.fetch .z1 r, State.fetched_xOut _ _ _, State.fetched_yOut _ _ _⟩
  · exact .inr ⟨_, he, State.hungFetch_stuck _ _ _ _, State.hungFetch_xOut _ _ _ _, State.hungFetch_yOut _ _ _ _⟩

/-- Without POINT_POSTCHECK the fetches of a touched point give 1, or hang with the outputs kept. -/
theorem pointFetch_outputs (hs : s.seq = .idle) (hpost : s.params.pointPostcheck = false) :
    (∃ t, pointFetch s = .done true t ∧ Ran s t) ∨
      ∃ t, pointFetch s = .hung t ∧ t.Stuck ∧ t.xOut = s.xOut ∧ t.yOut = s.yOut := by
  obtain ⟨r, hr⟩ | ⟨n, r, hn, hr, hx⟩ := s.receives_or_hangs 18
  · have he := pointFetch_done hs hr
    rw [hpost] at he
    exact .inl ⟨_, he, ((Ran.start.fetch .x r).fetch .y _).point _ _ (fetchValue_lt r) (fetchValue_lt _)⟩
  · obtain ⟨t, he, hstuck, -, hxOut, hyOut, -⟩ := pointFetch_hung hs hn hr hx
    exact .inr ⟨t, he, hstuck, hxOut, hyOut⟩

/-- A stuck body that kept the outputs: the operation kept them, and has not completed. -/
theorem exec_getRawPoint_hung_outputs (hs : s.Running) (h : exec .getRawPoint s = .next t)
    (he : pointQuery s = .hung u) (hstuck : u.Stuck) (hxOut : u.xOut = s.xOut) (hyOut : u.yOut = s.yOut) :
    t.xOut = s.xOut ∧ t.yOut = s.yOut ∧ (t.Completed → t.res = 0) := by
  rw [exec_getRawPoint_hung hs he, Host.Outcome.next.injEq] at h
  subst h
  exact ⟨hxOut, hyOut, fun ht => absurd ht.1 hstuck⟩

/-- Settles O34: GET_RAW_POINT answers 1 after a touched point's fetches only, and before them nothing writes the
outputs. -/
theorem outputsWrittenOnlyOnSuccess : Obligations.OutputsWrittenOnlyOnSuccess := by
  unfold Obligations.OutputsWrittenOnlyOnSuccess
  intro s t hs hpost h
  cases hb : s.busyAnswer 0 with
  | true =>
    rw [exec_getRawPoint_done hs (pointQuery_busy hb), Host.Outcome.next.injEq] at h
    subst h
    exact .inr ⟨rfl, rfl, fun _ => rfl⟩
  | false =>
    obtain ⟨touched, u, htouch, hu, hxOut, hyOut⟩ | ⟨u, htouch, hstuck, hxOut, hyOut⟩ :=
      touchQuery_outputs (s := s.queried) hs.1.1
    · cases touched with
      | false =>
        rw [exec_getRawPoint_done hs (pointQuery_untouched hb htouch), Host.Outcome.next.injEq] at h
        subst h
        exact .inr ⟨hxOut, hyOut, fun _ => rfl⟩
      | true =>
        have hran : Ran s u := Ran.start.query.trans hu
        have hpoint := pointQuery_touched hb htouch
        obtain ⟨v, he, hv⟩ | ⟨v, he, hstuck, hxOut', hyOut'⟩ :=
          pointFetch_outputs (hran.seq.trans hs.1.1) (by rw [hran.params, hpost])
        · rw [exec_getRawPoint_done hs (hpoint.trans he), Host.Outcome.next.injEq] at h
          subst h
          exact .inl ⟨⟨(hran.trans hv).seq.trans hs.1.1, (hran.trans hv).fault.trans hs.1.2⟩, rfl⟩
        · exact .inr (exec_getRawPoint_hung_outputs hs h (hpoint.trans he) hstuck (hxOut'.trans hxOut)
            (hyOut'.trans hyOut))
    · exact .inr (exec_getRawPoint_hung_outputs hs h (pointQuery_hung hb htouch) hstuck hxOut hyOut)

end Sys2Proof.Machine
end

/-! ### The transport and the filter, continued -/

section
namespace Sys2Proof.Machine

/-! #### XFER (R60, R69, R72) -/

/-- Settles O43: XFER's closed form in HARD mode. -/
theorem hardXferDelegates : Obligations.HardXferDelegates := by
  unfold Obligations.HardXferDelegates
  intro tx s hm
  have hbyte : s.rxByte 0 = s.exchangeAt 0 := by simp [State.rxByte, hm]
  refine ⟨fun r hr => ?_, fun hr => ?_⟩
  · rw [xfer_done (hbyte.trans hr)]
    simp [State.xferred, State.afterXfers, hm, xferEvents, zext16, lowByte]
  · rw [(xfer_hung (hbyte.trans hr)).2]
    simp [State.afterXfers, hm]

/-- Settles O44: in XFER's closed form the byte received comes from the environment alone, and the byte sent is the low
one. -/
theorem xferReceivesIndependently : Obligations.XferReceivesIndependently := by
  unfold Obligations.XferReceivesIndependently
  intro tx tx' s
  refine ⟨fun hlow => ?_, fun v t h => ?_, fun t h => ?_⟩
  · rw [xfer_eq, xfer_eq, lowByte, lowByte, hlow]
  · cases hr : s.rxByte 0 with
    | some r =>
      rw [xfer_done hr] at h
      cases h
      exact ⟨_, xfer_done hr, rfl⟩
    | none =>
      rw [(xfer_hung hr).2] at h
      cases h
  · cases hr : s.rxByte 0 with
    | some r =>
      rw [xfer_done hr] at h
      cases h
    | none =>
      rw [(xfer_hung hr).2] at h
      rw [(xfer_hung hr).2, h]

/-! #### FILTER (R100 to R105) -/

variable {a b c : Word}

/-- Settles O49: the replacement copies `S[2]` only. -/
theorem filterTouchesOnlySamples : Obligations.FilterTouchesOnlySamples := by
  unfold Obligations.FilterTouchesOnlySamples
  intro s
  refine ⟨rfl, ?_⟩
  simp only [State.runFilter]
  obtain h | h | h := replaceOutlier_cases s.triple <;> rw [h]
  · exact .inl rfl
  · exact .inr (.inl rfl)
  · exact .inr (.inr rfl)

theorem distance_comm (a b : Word) : distance a b = distance b a := by
  unfold distance
  omega

/-- The distance is the spec's |a - b| (R101). -/
theorem distance_eq_abs (a b : Word) : (distance a b : Int) = |(a.toNat : Int) - b.toNat| :=
  Int.natCast_natAbs _

theorem twelve_of_le (ha : a.toNat ≤ 4095) (hb : b.toNat ≤ 4095) (hc : c.toNat ≤ 4095) : (Triple.mk a b c).Twelve :=
  ⟨Nat.lt_succ_of_le ha, Nat.lt_succ_of_le hb, Nat.lt_succ_of_le hc⟩

/-- The filter on numbers: half the sum of the pair that the replacement leaves (R103). -/
theorem filterOf_toNat (h : (Triple.mk a b c).Twelve) :
    (filterOf a b c).toNat =
      ((Triple.mk a b c).replaceOutlier.s0.toNat + (Triple.mk a b c).replaceOutlier.s1.toNat) / 2 :=
  average_toNat h.replaceOutlier

/-- The three cases of R104, by the pair that is closest: its distance, and the result. -/
theorem filterOf_cases (h : (Triple.mk a b c).Twelve) :
    (distance a b ≤ distance a c ∧ distance a b ≤ distance b c ∧
      (filterOf a b c).toNat = (a.toNat + b.toNat) / 2) ∨
    (distance a c < distance a b ∧ distance a c ≤ distance b c ∧
      (filterOf a b c).toNat = (a.toNat + c.toNat) / 2) ∨
    (distance b c < distance a b ∧ distance b c < distance a c ∧
      (filterOf a b c).toNat = (c.toNat + b.toNat) / 2) := by
  rw [filterOf_toNat h]
  by_cases hfirst : distance a b ≤ distance a c ∧ distance a b ≤ distance b c
  · obtain ⟨h1, h2⟩ := hfirst
    exact .inl ⟨h1, h2, by simp [Triple.replaceOutlier, Nat.not_lt.2 h1, Nat.not_lt.2 h2]⟩
  · have hout : distance a b > distance a c ∨ distance a b > distance b c := by omega
    by_cases hthird : distance a c > distance b c
    · exact .inr (.inr ⟨by omega, hthird, by simp only [Triple.replaceOutlier, if_pos hout, if_pos hthird]⟩)
    · exact .inr (.inl ⟨by omega, Nat.not_lt.1 hthird,
        by simp only [Triple.replaceOutlier, if_pos hout, if_neg hthird]⟩)

/-- Settles O47: `filterOf_cases`, with the distances as integers. -/
theorem filterClosedForm : Obligations.FilterClosedForm := by
  unfold Obligations.FilterClosedForm
  rintro a b c ha hb hc _ _ _ rfl rfl rfl
  simp only [← distance_eq_abs]
  obtain ⟨h1, h2, hf⟩ | ⟨h1, h2, hf⟩ | ⟨h1, h2, hf⟩ := filterOf_cases (twelve_of_le ha hb hc)
  · exact .inl ⟨by omega, by omega, by omega, hf⟩
  · exact .inr (.inl ⟨by omega, by omega, by omega, hf⟩)
  · exact .inr (.inr ⟨by omega, by omega, by omega, hf⟩)

/-- The pair averaged is a closest pair, with the ties of R105. -/
theorem filterOf_closest_pair (h : (Triple.mk a b c).Twelve) :
    ∃ p q : Word,
      ((p = a ∧ q = b ∧ distance a b ≤ distance a c ∧ distance a b ≤ distance b c) ∨
       (p = a ∧ q = c ∧ distance a c < distance a b ∧ distance a c ≤ distance b c) ∨
       (p = c ∧ q = b ∧ distance b c < distance a b ∧ distance b c < distance a c)) ∧
      (filterOf a b c).toNat = (p.toNat + q.toNat) / 2 := by
  obtain ⟨h1, h2, hf⟩ | ⟨h1, h2, hf⟩ | ⟨h1, h2, hf⟩ := filterOf_cases h
  · exact ⟨a, b, .inl ⟨rfl, rfl, h1, h2⟩, hf⟩
  · exact ⟨a, c, .inr (.inl ⟨rfl, rfl, h1, h2⟩), hf⟩
  · exact ⟨c, b, .inr (.inr ⟨rfl, rfl, h1, h2⟩), hf⟩

theorem filterOf_between (h : (Triple.mk a b c).Twelve) :
    min a.toNat (min b.toNat c.toNat) ≤ (filterOf a b c).toNat ∧
      (filterOf a b c).toNat ≤ max a.toNat (max b.toNat c.toNat) := by
  obtain ⟨-, -, hf⟩ | ⟨-, -, hf⟩ | ⟨-, -, hf⟩ := filterOf_cases h <;> rw [hf] <;> omega

/-- Two samples at distance 0 are one number. -/
theorem distance_eq_zero (h : distance a b = 0) : a.toNat = b.toNat := by
  unfold distance at h
  omega

theorem distance_self (a : Word) : distance a a = 0 := by
  simp [distance]

/-- Two equal samples give their value: they are a closest pair, and if another pair is averaged all three are equal. -/
theorem filterOf_first_eq (h : (Triple.mk a a c).Twelve) : filterOf a a c = a := by
  have h0 := distance_self a
  apply BitVec.eq_of_toNat_eq
  obtain ⟨-, -, hf⟩ | ⟨h1, -, -⟩ | ⟨h1, -, -⟩ := filterOf_cases h <;> omega

theorem filterOf_outer_eq (h : (Triple.mk a b a).Twelve) : filterOf a b a = a := by
  have h0 := distance_self a
  apply BitVec.eq_of_toNat_eq
  obtain ⟨h1, -, hf⟩ | ⟨-, -, hf⟩ | ⟨-, h2, -⟩ := filterOf_cases h
  · have := distance_eq_zero (a := a) (b := b) (by omega)
    omega
  · omega
  · omega

theorem filterOf_last_eq (h : (Triple.mk a b b).Twelve) : filterOf a b b = b := by
  have h0 := distance_self b
  apply BitVec.eq_of_toNat_eq
  obtain ⟨-, h2, hf⟩ | ⟨h1, -, -⟩ | ⟨-, -, hf⟩ := filterOf_cases h
  · have := distance_eq_zero (a := a) (b := b) (by omega)
    omega
  · omega
  · omega

theorem Triple.Twelve.swap (h : (Triple.mk a b c).Twelve) : (Triple.mk b a c).Twelve := by
  obtain ⟨ha, hb, hc⟩ := h
  exact ⟨hb, ha, hc⟩

/-- Swapping the first two samples swaps the outer distances, so the second case becomes the third and the same pair is
averaged, but in their tie (R105). -/
theorem filterOf_swap (h : (Triple.mk a b c).Twelve)
    (hne : ¬(distance a b > distance a c ∧ distance a c = distance b c)) : filterOf a b c = filterOf b a c := by
  have hcomm := distance_comm a b
  apply BitVec.eq_of_toNat_eq
  obtain ⟨h1, h2, hf⟩ | ⟨h1, h2, hf⟩ | ⟨h1, h2, hf⟩ := filterOf_cases h <;>
    obtain ⟨h1', h2', hf'⟩ | ⟨h1', h2', hf'⟩ | ⟨h1', h2', hf'⟩ := filterOf_cases h.swap <;> omega

/-- In the tie of the outer distances the first sample is kept and the second replaced. -/
theorem filterOf_outer_tie (h : (Triple.mk a b c).Twelve) (h1 : distance a b > distance a c)
    (h2 : distance a c ≤ distance b c) : (filterOf a b c).toNat = (a.toNat + c.toNat) / 2 := by
  obtain ⟨h1', -, -⟩ | ⟨-, -, hf⟩ | ⟨-, h2', -⟩ := filterOf_cases h
  · omega
  · exact hf
  · omega

/-- Settles O48: each property from the three cases of R104; the last clause is evaluated. -/
theorem filterProperties : Obligations.FilterProperties := by
  unfold Obligations.FilterProperties
  refine ⟨fun a b c ha hb hc => ?_, by decide⟩
  have h := twelve_of_le ha hb hc
  obtain ⟨p, q, hpair, hf⟩ := filterOf_closest_pair h
  obtain ⟨hmin, hmax⟩ := filterOf_between h
  refine ⟨⟨p, q, hpair, hf, by omega, by omega⟩, hmin, hmax, by omega, ?_, ?_, ?_, filterOf_swap h, fun h1 h2 => ?_⟩
  · rintro rfl
    exact filterOf_first_eq h
  · rintro rfl
    exact filterOf_outer_eq h
  · rintro rfl
    exact filterOf_last_eq h
  · exact ⟨filterOf_outer_tie h h1 h2.le,
      filterOf_outer_tie h.swap (by rw [distance_comm b a, ← h2]; exact h1) h2.ge⟩

end Sys2Proof.Machine
end

/-! ### Frames, and what no operation reads -/

section
namespace Sys2Proof.Machine

variable {i : Instr} {s t : State}

/-! #### What INIT's set-up and a fetch leave unchanged -/

theorem startOf_pcfg_soft (hm : s.params.mode = .soft) (i : Instr) : (startOf i s).pcfg = s.pcfg := by
  cases i with
  | init => simp [startOf, State.setUp, hm]
  | _ => rfl

theorem startOf_periphOpen (i : Instr) (s : State) : (startOf i s).periphOpen = s.periphOpen := by
  cases i <;> rfl

theorem startOf_hardLines (hm : s.params.mode = .hard) (i : Instr) :
    (startOf i s).sck = s.sck ∧ (startOf i s).mosi = s.mosi := by
  cases i with
  | init => simp [startOf, State.setUp, hm]
  | _ => exact ⟨rfl, rfl⟩

theorem fetchSeq_outputs (hs : s.seq = .idle) (ch : Channel) :
    (fetchSeq ch s).state.xOut = s.xOut ∧ (fetchSeq ch s).state.yOut = s.yOut := by
  obtain ⟨r, -, he⟩ | ⟨n, r, -, -, -, -, he⟩ := fetchSeq_cases ch hs <;> rw [he]
  · exact ⟨State.fetched_xOut _ _ _, State.fetched_yOut _ _ _⟩
  · exact ⟨State.hungFetch_xOut _ _ _ _, State.hungFetch_yOut _ _ _ _⟩

theorem Micro.settle_xOut (m : Micro Word) : m.settle.xOut = m.state.xOut := by
  cases m <;> rfl

theorem Micro.settle_yOut (m : Micro Word) : m.settle.yOut = m.state.yOut := by
  cases m <;> rfl

/-- Going on to a value of the same state keeps what the state holds. -/
theorem Micro.state_bind_done {α β : Type} (m : Micro α) (f : α → β) :
    (m.bind fun a s => .done (f a) s).state = m.state := by
  cases m <;> rfl

/-- Only GET_RAW_POINT writes the outputs (R18). -/
theorem body_keeps_outputs (hs : s.seq = .idle) (hi : i ≠ .getRawPoint) :
    (bodyOf i s).state.xOut = s.xOut ∧ (bodyOf i s).state.yOut = s.yOut := by
  cases i with
  | init =>
    simp only [bodyOf, initBody, initSetup_eq, Micro.state_bind_done]
    exact fetchSeq_outputs (s := s.setUp) hs .x
  | isBusy =>
    simp only [bodyOf, isBusyBody, busyQuery_eq]
    exact ⟨rfl, rfl⟩
  | isTouched =>
    simp only [bodyOf, isTouchedBody, Micro.state_bind_done]
    obtain ⟨b, u, he, -, hxOut, hyOut⟩ | ⟨u, he, -, hxOut, hyOut⟩ := touchQuery_outputs hs <;> rw [he] <;>
      exact ⟨hxOut, hyOut⟩
  | getRawPoint => exact absurd rfl hi
  | fetch ch => exact fetchSeq_outputs hs ch

theorem exec_keeps_outputs (h : exec i s = .next t) (hi : i ≠ .getRawPoint) : t.xOut = s.xOut ∧ t.yOut = s.yOut := by
  obtain ⟨hs, ⟨c, -, rfl⟩ | ⟨-, rfl⟩⟩ := exec_cases h
  · exact ⟨rfl, rfl⟩
  · rw [Micro.settle_xOut, Micro.settle_yOut]
    exact body_keeps_outputs hs.1 hi

/-! #### The queries that make no transfer -/

/-- What a query without a transfer leaves unchanged: `S` and every line. -/
def SameBus (s t : State) : Prop :=
  t.triple = s.triple ∧ t.cs = s.cs ∧ t.sck = s.sck ∧ t.mosi = s.mosi ∧ t.periphOpen = s.periphOpen

/-- IS_BUSY, and IS_TOUCHED with a presence line, make no transfer. -/
theorem exec_query_sameBus (h : exec i s = .next t)
    (hi : i = .isBusy ∨ (i = .isTouched ∧ s.params.hasPresence = true)) : SameBus s t := by
  obtain ⟨hs, ⟨c, -, rfl⟩ | ⟨-, rfl⟩⟩ := exec_cases h
  · exact ⟨rfl, rfl, rfl, rfl, rfl⟩
  · obtain rfl | ⟨rfl, hp⟩ := hi
    · simp only [bodyOf, isBusyBody, busyQuery_eq]
      exact ⟨rfl, rfl, rfl, rfl, rfl⟩
    · simp only [bodyOf, isTouchedBody]
      cases hb : s.busyAnswer 0 with
      | true =>
        rw [touchQuery_busy hb]
        exact ⟨rfl, rfl, rfl, rfl, rfl⟩
      | false =>
        rw [touchQuery_presence hb hp]
        exact ⟨rfl, rfl, rfl, rfl, rfl⟩

/-- What every operation that answers a next state keeps, in one relation for the state a body runs to and for the state
it hangs in. -/
structure Frame (s t : State) : Prop where
  params : t.params = s.params
  requests : t.requests = s.requests
  resetLine : t.resetLine = s.resetLine
  hardLines : s.params.mode = .hard → t.sck = s.sck ∧ t.mosi = s.mosi
  softPeripheral : s.params.mode = .soft → t.periphOpen = s.periphOpen ∧ t.pcfg = s.pcfg

theorem Ran.frame (h : Ran (startOf i s) t) : Frame s t where
  params := by rw [h.params, startOf_params]
  requests := by rw [h.requests, startOf_requests]
  resetLine := by rw [h.resetLine, startOf_resetLine]
  hardLines hm := by
    obtain ⟨hsck, hmosi⟩ := h.hardLines (by rw [startOf_params, hm])
    obtain ⟨hsck', hmosi'⟩ := startOf_hardLines hm i
    exact ⟨hsck.trans hsck', hmosi.trans hmosi'⟩
  softPeripheral hm :=
    ⟨(h.softOpen (by rw [startOf_params, hm])).trans (startOf_periphOpen i s), h.pcfg.trans (startOf_pcfg_soft hm i)⟩

/-- A hang of HARD mode keeps them too. -/
theorem Frame.hungFetch {u : State} (h : Frame s u) (hm : s.params.mode = .hard) (ch : Channel) (r : Nat → Byte)
    (n : Nat) : Frame s (u.hungFetch ch r n) where
  params := (State.hungFetch_params u ch r n).trans h.params
  requests := (State.hungFetch_requests u ch r n).trans h.requests
  resetLine := (State.hungFetch_resetLine u ch r n).trans h.resetLine
  hardLines _ := by simpa [State.hungFetch] using h.hardLines hm
  softPeripheral hs := by
    rw [hm] at hs
    cases hs

theorem exec_frame (h : exec i s = .next t) : Frame s t := by
  obtain ⟨-, hend⟩ := exec_ended h
  cases hend with
  | raised c hc => exact ⟨rfl, rfl, rfl, fun _ => ⟨rfl, rfl⟩, fun _ => ⟨rfl, rfl⟩⟩
  | completed v u hc hbody hu hv =>
    obtain ⟨hparams, hrequests, hreset, hhard, hsoft⟩ := hu.frame
    exact ⟨hparams, hrequests, hreset, hhard, hsoft⟩
  | hung u ch r n hc hu hm hn => exact hu.frame.hungFetch hm ch r n

/-- Only INIT writes `INIT_DONE` and `PCFG` (R21, R26). -/
theorem exec_keeps_setUp (h : exec i s = .next t) (hi : i ≠ .init) : t.initDone = s.initDone ∧ t.pcfg = s.pcfg := by
  obtain ⟨-, hend⟩ := exec_ended h
  cases hend with
  | raised c hc => exact ⟨rfl, rfl⟩
  | completed v u hc hbody hu hv =>
    rw [startOf_eq_self hi] at hu
    exact ⟨hu.initDone, hu.pcfg⟩
  | hung u ch r n hc hu hm hn =>
    rw [startOf_eq_self hi] at hu
    exact ⟨(State.hungFetch_initDone _ _ _ _).trans hu.initDone, (State.hungFetch_pcfg _ _ _ _).trans hu.pcfg⟩

/-- Settles O38: the frame of every operation, and the clauses about some of them. -/
theorem operationFrame : Obligations.OperationFrame := by
  unfold Obligations.OperationFrame
  intro i s t h
  obtain ⟨hparams, hrequests, hreset, hhard, hsoft⟩ := exec_frame h
  exact ⟨hparams, hrequests, hreset, exec_keeps_setUp h, exec_keeps_outputs h, hhard, hsoft, exec_query_sameBus h⟩

/-! #### Two runs side by side -/

/-- The state with other contents of the caller's registers and of `TRACE`. -/
def State.withView (p q w : Word) (l : List Event) (s : State) : State :=
  { s with res := p, xOut := q, yOut := w, trace := l }

namespace State

variable (p q w : Word) (l : List Event) (s : State)

/-! A fetch does the same under another view, and appends the same events; so do the other operations of the bodies, by
definition. -/

theorem withView_fetched (ch : Channel) (r : Nat → Byte) :
    (s.withView p q w l).fetched ch r = (s.fetched ch r).withView p q w
      (l ++ fetchEvents s.params.mode (command s.params ch) s.params.dummy r) := by
  cases hm : s.params.mode <;> simp [fetched, afterXfers, withView, hm, afterMiso, afterExchange]

theorem withView_hungFetch (ch : Channel) (r : Nat → Byte) (n : Nat) :
    (s.withView p q w l).hungFetch ch r n = (s.hungFetch ch r n).withView p q w
      (l ++ (selectEvents .hard ++ fetchXfers .hard (command s.params ch) s.params.dummy r n)) := by
  cases hm : s.params.mode <;> simp [hungFetch, afterXfers, withView, hm, afterMiso, afterExchange]

end State

/-- A register in two runs: the same in both, or unwritten in both. -/
def SameOrUnwritten (old old' now now' : Word) : Prop := now' = now ∨ (now = old ∧ now' = old')

/-- A register that starts alike in both runs ends alike. -/
theorem SameOrUnwritten.eq {old now now' : Word} (h : SameOrUnwritten old old now now') : now' = now := by
  obtain h | ⟨rfl, rfl⟩ := h
  · exact h
  · rfl

/-- Two runs, one from s and one from s with another view: their states a and b differ in the view only, the new events
of `TRACE` are the same, and each register of the caller is the same or unwritten. -/
def Disguised (s : State) (v x y : Word) (history : List Event) (a b : State) : Prop :=
  ∃ new p q w, a.trace = s.trace ++ new ∧ b = a.withView p q w (history ++ new) ∧
    SameOrUnwritten s.res v a.res p ∧ SameOrUnwritten s.xOut x a.xOut q ∧ SameOrUnwritten s.yOut y a.yOut w

variable {v x y : Word} {history : List Event} {a b : State}

theorem Disguised.start : Disguised s v x y history s (s.withView v x y history) :=
  ⟨[], v, x, y, by simp, by simp, .inr ⟨rfl, rfl⟩, .inr ⟨rfl, rfl⟩, .inr ⟨rfl, rfl⟩⟩

/-- An operation that appends events and writes none of the three registers. -/
theorem Disguised.append {f : State → State} {events : List Event} (h : Disguised s v x y history a b)
    (htrace : (f a).trace = a.trace ++ events)
    (hview : ∀ p q w l, f (a.withView p q w l) = (f a).withView p q w (l ++ events))
    (hkeep : (f a).res = a.res ∧ (f a).xOut = a.xOut ∧ (f a).yOut = a.yOut) :
    Disguised s v x y history (f a) (f b) := by
  obtain ⟨new, p, q, w, hnew, rfl, hp, hq, hw⟩ := h
  obtain ⟨hres, hxOut, hyOut⟩ := hkeep
  refine ⟨new ++ events, p, q, w, ?_, ?_, hres ▸ hp, hxOut ▸ hq, hyOut ▸ hw⟩
  · rw [htrace, hnew, List.append_assoc]
  · rw [hview, List.append_assoc]

/-- Every operation of the bodies keeps the relation. -/
theorem Disguised.sim (s : State) (v x y : Word) (history : List Event) : Sim (Disguised s v x y history) where
  same := by
    rintro a b ⟨new, p, q, w, -, rfl, -⟩
    exact ⟨rfl, rfl, rfl⟩
  queried h := h.append rfl (fun _ _ _ _ => rfl) ⟨rfl, rfl, rfl⟩
  presence h := h.append rfl (fun _ _ _ _ => rfl) ⟨rfl, rfl, rfl⟩
  fetched h ch r := h.append (f := (State.fetched ch r ·)) rfl (fun _ _ _ _ => State.withView_fetched _ _ _ _ _ ch r)
    ⟨State.fetched_res _ _ _, State.fetched_xOut _ _ _, State.fetched_yOut _ _ _⟩
  hung h ch r n := h.append (f := (State.hungFetch ch r n ·)) rfl
    (fun _ _ _ _ => State.withView_hungFetch _ _ _ _ _ ch r n)
    ⟨State.hungFetch_res _ _ _ _, State.hungFetch_xOut _ _ _ _, State.hungFetch_yOut _ _ _ _⟩
  setUp h := h.append rfl (fun _ _ _ _ => rfl) ⟨rfl, rfl, rfl⟩
  point := by
    rintro a b ⟨new, p, q, w, hnew, rfl, hp, -, -⟩ x' y'
    exact ⟨new, p, x', y', hnew, rfl, hp, .inl rfl, .inl rfl⟩
  complete := by
    rintro a b ⟨new, p, q, w, hnew, rfl, -, hq, hw⟩ v'
    exact ⟨new, v', q, w, hnew, rfl, .inl rfl, hq, hw⟩

/-- An operation does the same under another view of the caller's registers and of `TRACE`. -/
theorem exec_withView (v x y : Word) (history : List Event) (h : exec i s = .next t) :
    ∃ t', exec i (s.withView v x y history) = .next t' ∧ Disguised s v x y history t t' :=
  (Disguised.sim s v x y history).exec Disguised.start rfl rfl
    (fun _ _ => Disguised.start.append (events := []) (by simp) (by simp [State.withView, State.raise])
      ⟨rfl, rfl, rfl⟩) h

/-- Settles O40: the view differs in `TRACE` only, so a register unwritten in both runs is the same in both. -/
theorem noOperationReadsTrace : Obligations.NoOperationReadsTrace := by
  unfold Obligations.NoOperationReadsTrace
  intro i s t history h
  obtain ⟨t', he, new, p, q, w, hnew, rfl, hp, hq, hw⟩ := exec_withView s.res s.xOut s.yOut history h
  obtain rfl := hp.eq
  obtain rfl := hq.eq
  obtain rfl := hw.eq
  exact ⟨new, hnew, he⟩

/-- Settles O41: the view differs in the three registers only. -/
theorem noOperationReadsResults : Obligations.NoOperationReadsResults := by
  unfold Obligations.NoOperationReadsResults
  intro i s t v x y h
  obtain ⟨t', he, new, p, q, w, hnew, rfl, hp, hq, hw⟩ := exec_withView v x y s.trace h
  refine ⟨_, he, ?_, hp, hq, hw⟩
  rw [State.withView, ← hnew]

/-- Settles O39: an operation appends its new events, and the other steps without reset write no event. -/
theorem traceOnlyGrows : Obligations.TraceOnlyGrows := by
  unfold Obligations.TraceOnlyGrows
  intro s t h hreset
  obtain ⟨hreset', -⟩ | ⟨-, -, -, rfl⟩ | ⟨w, rest, i, -, -, -, -, he⟩ | ⟨w, rest, reason, -, -, -, -, rfl⟩ :=
    step_cases h
  · rw [hreset] at hreset'
    cases hreset'
  · exact ⟨[], by simp⟩
  · obtain ⟨new, hnew, -⟩ := noOperationReadsTrace i _ t [] he
    exact ⟨new, hnew⟩
  · exact ⟨[], by simp⟩

end Sys2Proof.Machine
end
